-- ==== Sys2Proof/Word.lean ====
section
/-!
DEFINITION. The primitives of the spec on `W`-bit unsigned numbers (00_scope rules R12, R13).

`W` is an open parameter of the hardware (R5), so a `W`-bit number is a natural number and every
primitive takes the width and reduces modulo `2 ^ W`, as R13 writes it. That the registers stay
below `2 ^ W` is an invariant of the machine, not a property of the type (log 3, safe). The same holds
of slot values, words of `DW` bits (R6).
-/

namespace Sys2Proof

/-- `a +w b = (a + b) mod 2^W` (R13). -/
def addW (w : Nat) (a b : Nat) : Nat := (a + b) % 2 ^ w

/-- `a -w b = (a - b) mod 2^W`, a result in `[0, 2^W)` (R13). -/
def subW (w : Nat) (a b : Nat) : Nat := (a + (2 ^ w - b % 2 ^ w)) % 2 ^ w

end Sys2Proof
end

