-- ==== Sys2Proof/Config.lean ====
section
/-!
DEFINITION. What an implementation fixes before construction: the parameters of 00_scope section 4.

They are carried by the state as plain data that no step writes (State.cfg), so that every statement
about every state holds for every choice of them (log 1). The spec leaves no result value free
(every result field has a value by 30_encoding R87), so there is no free value here.
-/

namespace Sys2Proof

/-- The parameter CLOCKING (R9). -/
inductive Clocking where
  /-- Two unrelated clock domains; each cursor crosses through a synchronizer. -/
  | dual
  /-- One clock domain; each side reads the other's cursor directly. -/
  | single
  deriving DecidableEq, Repr

/-- The parameter SHADOW (R10); it has meaning only when CLOCKING = DUAL. -/
inductive Shadow where
  /-- Reload the copy of the peer's cursor only when it says full or empty. -/
  | refreshOnMiss
  /-- Reload the copy at every ENQ or DEQ. -/
  | alwaysReload
  deriving DecidableEq, Repr

/-- The parameters fixed before construction (R5, R6, R9, R10, R11; 70_reset_and_hazards R233 (1)).
PAD has no effect on any rule (R243) and is no field. -/
structure Params where
  /-- The index width `W` (R5). -/
  w : Nat
  /-- The slot width `DW` (R6). -/
  dw : Nat
  /-- CLOCKING (R9). -/
  clocking : Clocking
  /-- SHADOW (R10). -/
  shadow : Shadow
  /-- NSYNC, the number of stages of each synchronizer chain (R11). -/
  nsync : Nat
  /-- CLEAR_ON_READ (R11). -/
  clearOnRead : Bool
  deriving DecidableEq, Repr

/-- The constraints the spec puts on the parameters: `W >= 2`, `DW >= 1`, `NSYNC >= 2`
(R5, R6, R11). -/
abbrev Params.Ok (p : Params) : Prop := 2 ≤ p.w ∧ 1 ≤ p.dw ∧ 2 ≤ p.nsync

/-- CLOCKING = DUAL. -/
def Params.isDual (p : Params) : Bool := p.clocking == .dual

/-- The document's "zero-value" of a slot (R6). -/
def zeroDatum : Nat := 0

/-- The configuration of the spec's vectors (95_test_vectors, header): `W = 8`, `DW = 8` and the
defaults of R9 to R11. DESIGN CHOICE for `W` and `DW` (log 1). -/
def Params.default : Params :=
  { w := 8, dw := 8, clocking := .dual, shadow := .refreshOnMiss, nsync := 2, clearOnRead := true }

end Sys2Proof
end

