-- ==== Sys2Proof/Syntax.lean ====
section
/-!
DEFINITION. The commands of the hardware (one constructor per row of spec/opcode_table.json), the
words in which they are presented, and what the environment can present to the machine at a step.
-/

namespace Sys2Proof

/-- The agents of 00_scope R15. -/
inductive Agent where
  /-- `P`, the producer port. -/
  | producer
  /-- `C`, the consumer port. -/
  | consumer
  /-- `H`, the host port. -/
  | host
  deriving DecidableEq, Repr

/-- The 26 rows of the opcode table (30_encoding R84, R85, R88, R92, R93). -/
inductive Instr where
  /-- NOP.P (R167). -/
  | nopP
  /-- ENQ with the item on `p_data` (R141). -/
  | enq (item : Nat)
  /-- LEN.P (R162). -/
  | lenP
  /-- ISEMPTY.P (R163). -/
  | isEmptyP
  /-- ISFULL.P (R164). -/
  | isFullP
  /-- CAP.P (R165). -/
  | capP
  /-- DBG.P (R166). -/
  | dbgP
  /-- NOP.C (R167). -/
  | nopC
  /-- DEQ (R151). -/
  | deq
  /-- LEN.C (R162). -/
  | lenC
  /-- ISEMPTY.C (R163). -/
  | isEmptyC
  /-- ISFULL.C (R164). -/
  | isFullC
  /-- CAP.C (R165). -/
  | capC
  /-- DBG.C (R166). -/
  | dbgC
  /-- HNOP (R128). -/
  | hnop
  /-- FLUSH_BEGIN (R126). -/
  | flushBegin
  /-- FLUSH_END (R127). -/
  | flushEnd
  /-- RESET (R124). -/
  | reset
  /-- CONSTRUCT with the capacity hint (R120). -/
  | construct (hint : Nat)
  /-- CONSTRUCT_FROM with the initial sequence (R122). -/
  | constructFrom (init : List Nat)
  /-- SYNC_W2R (R180). -/
  | syncW2r
  /-- SYNC_R2W (R181). -/
  | syncR2w
  /-- ILLEGAL.P.DEQ: the opcode of DEQ on the producer port (R88). -/
  | illegalPDeq
  /-- RESERVED.P: opcode bit 3 set, the low three bits free (R88). -/
  | reservedP (low : BitVec 3)
  /-- ILLEGAL.C.ENQ: the opcode of ENQ on the consumer port (R88). -/
  | illegalCEnq
  /-- RESERVED.C: opcode bit 3 set, the low three bits free (R88). -/
  | reservedC (low : BitVec 3)
  deriving DecidableEq, Repr

/-- The four command formats of R81 with their words (R82), and the model's tag of the two
crossing agents (R93). -/
inductive Request where
  /-- PCMD, `{p_op[3:0], p_data[DW-1:0]}`, `DW + 4` bits. -/
  | pcmd (word : Nat)
  /-- CCMD, `{c_op[3:0]}`, 4 bits. -/
  | ccmd (word : Nat)
  /-- HCMD, `{h_op[1:0]}`, 2 bits. -/
  | hcmd (word : Nat)
  /-- ELAB, `{has_init}`, 1 bit, with the parameters HINT and INIT. -/
  | making (hasInit hint : Nat) (init : List Nat)
  /-- AGENT, `{dir}`, 1 bit. -/
  | agent (dir : Nat)
  deriving DecidableEq, Repr

/-- What the environment presents to the machine at one step (10_state R25: "an input from the
environment"). -/
inductive Event where
  /-- One command on one port, or a step of a crossing agent. -/
  | command (r : Request)
  /-- An active edge of `wclk` as the chain `r2w` sees it (45_cdc_sync R185). Of the bits of
  `rgray` that have just changed, those with a one in `capture` are sampled new, the rest old
  (R186). -/
  | wclkEdge (capture : Nat)
  /-- An active edge of `rclk` as the chain `w2r` sees it (R185, R186). -/
  | rclkEdge (capture : Nat)
  /-- An ENQ and a DEQ at the same instant. At an edge of the one clock both use the cursors before the
  edge (20_memory R74) and `producerFirst` has no part in the result; otherwise they are two steps in
  either order (60_exceptions R207, 93 U21), ENQ first when `producerFirst`. -/
  | sameEdge (item : Nat) (producerFirst : Bool)
  deriving DecidableEq, Repr

/-- Why a request is no command: the word has more bits than its format (R82, R93). -/
inductive DecodeError where
  /-- A PCMD word of more than `DW + 4` bits. -/
  | pcmdTooWide
  /-- A CCMD word of more than 4 bits. -/
  | ccmdTooWide
  /-- An HCMD word of more than 2 bits. -/
  | hcmdTooWide
  /-- A `has_init` of more than 1 bit. -/
  | makingTooWide
  /-- A `dir` of more than 1 bit. -/
  | agentTooWide
  deriving DecidableEq, Repr

end Sys2Proof
end

