-- ==== Sys2Proof/WellFormed.lean ====
section
/-!
DEFINITION. Which commands can be presented at slot width `DW`: the data operands are `DW`-bit words
(30_encoding R82, R86; 00_scope R6, R7).
-/

namespace Sys2Proof

/-- A value that fits the `DW` bits of a slot (R6). -/
def datumFits (dw : Nat) (v : Nat) : Bool := decide (v < 2 ^ dw)

/-- The operands of a command fit their fields: the item of ENQ is `p_data[DW-1:0]` (R86) and every
element of INIT is a slot value (R7). HINT is any natural number (R7), the low bits of a reserved
opcode are three bits by their type. -/
def Instr.wellFormed (dw : Nat) : Instr → Bool
  | .enq item => datumFits dw item
  | .constructFrom init => init.all (datumFits dw)
  | .nopP | .lenP | .isEmptyP | .isFullP | .capP | .dbgP => true
  | .nopC | .deq | .lenC | .isEmptyC | .isFullC | .capC | .dbgC => true
  | .hnop | .flushBegin | .flushEnd | .reset | .construct _ => true
  | .syncW2r | .syncR2w => true
  | .illegalPDeq | .reservedP _ | .illegalCEnq | .reservedC _ => true

/-- A request whose word has no more bits than its format (R82, R93). -/
def Request.fits (dw : Nat) : Request → Bool
  | .pcmd word => decide (word < 2 ^ (dw + 4))
  | .ccmd word => decide (word < 2 ^ 4)
  | .hcmd word => decide (word < 2 ^ 2)
  | .making hasInit _ _ => decide (hasInit < 2)
  | .agent dir => decide (dir < 2)

end Sys2Proof
end

