-- ==== Sys2Proof/Decode.lean ====
section
/-!
DEFINITION. The decoder, total on every request (30_encoding R92), the encoder, and the reading of a
word of spec/opcode_table.json.
-/

namespace Sys2Proof

/-- The producer port's opcode map, column "on P" of R84. -/
def decodeP (op : Nat) (data : Nat) : Instr :=
  match op with
  | 0 => .nopP
  | 1 => .enq data
  | 2 => .illegalPDeq
  | 3 => .lenP
  | 4 => .isEmptyP
  | 5 => .isFullP
  | 6 => .capP
  | 7 => .dbgP
  | n => .reservedP (BitVec.ofNat 3 n)

/-- The consumer port's opcode map, column "on C" of R84. -/
def decodeC (op : Nat) : Instr :=
  match op with
  | 0 => .nopC
  | 1 => .illegalCEnq
  | 2 => .deq
  | 3 => .lenC
  | 4 => .isEmptyC
  | 5 => .isFullC
  | 6 => .capC
  | 7 => .dbgC
  | n => .reservedC (BitVec.ofNat 3 n)

/-- The host port's opcode map, R85: no value is reserved. -/
def decodeH (op : Nat) : Instr :=
  match op with
  | 0 => .hnop
  | 1 => .flushBegin
  | 2 => .flushEnd
  | _ => .reset

/-- Decoding is total and reads no state (R92): a request whose word fits its format is one
command, any other is rejected by name. `dw` is the parameter `DW`, which places `p_op` above
`p_data` (R82). -/
def decode (dw : Nat) : Request → Except DecodeError Instr
  | .pcmd word =>
    if word < 2 ^ (dw + 4) then .ok (decodeP (word / 2 ^ dw) (word % 2 ^ dw)) else .error .pcmdTooWide
  | .ccmd word => if word < 2 ^ 4 then .ok (decodeC word) else .error .ccmdTooWide
  | .hcmd word => if word < 2 ^ 2 then .ok (decodeH word) else .error .hcmdTooWide
  | .making hasInit hint init =>
    match hasInit with
    | 0 => .ok (.construct hint)
    | 1 => .ok (.constructFrom init)
    | _ => .error .makingTooWide
  | .agent dir =>
    match dir with
    | 0 => .ok .syncW2r
    | 1 => .ok .syncR2w
    | _ => .error .agentTooWide

/-- A PCMD word from its two fields (R82). -/
def pcmdWord (dw op : Nat) (data : Nat) : Request := .pcmd (op * 2 ^ dw + data)

/-- The request that presents a command (R82, R84, R85, R88, R93); an ignored `p_data` is zero. -/
def encode (dw : Nat) : Instr → Request
  | .nopP => pcmdWord dw 0x0 0
  | .enq item => pcmdWord dw 0x1 item
  | .illegalPDeq => pcmdWord dw 0x2 0
  | .lenP => pcmdWord dw 0x3 0
  | .isEmptyP => pcmdWord dw 0x4 0
  | .isFullP => pcmdWord dw 0x5 0
  | .capP => pcmdWord dw 0x6 0
  | .dbgP => pcmdWord dw 0x7 0
  | .reservedP low => pcmdWord dw (0x8 + low.toNat) 0
  | .nopC => .ccmd 0x0
  | .illegalCEnq => .ccmd 0x1
  | .deq => .ccmd 0x2
  | .lenC => .ccmd 0x3
  | .isEmptyC => .ccmd 0x4
  | .isFullC => .ccmd 0x5
  | .capC => .ccmd 0x6
  | .dbgC => .ccmd 0x7
  | .reservedC low => .ccmd (0x8 + low.toNat)
  | .hnop => .hcmd 0b00
  | .flushBegin => .hcmd 0b01
  | .flushEnd => .hcmd 0b10
  | .reset => .hcmd 0b11
  | .construct hint => .making 0 hint []
  | .constructFrom init => .making 1 0 init
  | .syncW2r => .agent 0
  | .syncR2w => .agent 1

/-- The request that a word of spec/opcode_table.json stands for. The table numbers only the bits of
a row's opcode field and gives no port, so one word fits rows of several ports: it is read as the
FIRST row of the table, in the table's order, whose width it can have (`nbits`) and whose pattern it
matches, with operands of zeros (log 14, DESIGN CHOICE). More than 8 bits are a PCMD, 2 bits an HCMD,
1 bit an ELAB; otherwise opcode 2 is DEQ on C and every other opcode is the row of port P. Bits above
the opcode field of a PCMD are `p_data`. -/
def Request.ofTableWord (dw nbits w : Nat) : Request :=
  if nbits = 1 then .making (w % 2) 0 []
  else if nbits = 2 then .hcmd (w % 4)
  else if nbits ≤ 8 ∧ w % 16 = 2 then .ccmd 2
  else pcmdWord dw (w % 16) (w / 16 % 2 ^ dw)

/-- The slot width at which the table shows its PCMD encodings ("encoding shown for DW = 8"). -/
def tableDw : Nat := 8

/-- The instruction the decoder reads from a word of spec/opcode_table.json. -/
def decodeTableWord (nbits w : Nat) : Option Instr :=
  match decode tableDw (Request.ofTableWord tableDw nbits w) with
  | .ok i => some i
  | .error _ => none

end Sys2Proof
end

