-- ==== Sys2Proof/Machine/State.lean ====
section
/-!
DEFINITION. The state of the machine (10_state R20), the errors (60_exceptions R200), the reasons a
step can stop, and the state after reset (R41, R230).
-/

namespace Sys2Proof.Machine

/-- The errors of R200, with what each records. -/
inductive ErrorKind where
  /-- Code 3: a reserved or wrong-port opcode (R88), or FLUSH_END with no window open (R127). -/
  | illegalCommand
  /-- Code 4: a command other than NOP while `flushing = 1` (R209). -/
  | flushRace
  /-- Code 5: SlotRead of a slot that holds no value (R55); the slot index. -/
  | unwrittenSlot (index : Nat)
  /-- Code 6: SlotRead or SlotWrite of an index `>= CAP` (R55, R56); the slot index. -/
  | indexOutOfRange (index : Nat)
  deriving DecidableEq, Repr

/-- One entry of `fault` (10_state R34): the error, the agent and the command, the command as the
value of the port's opcode field (log 5). -/
structure ErrorEntry where
  /-- The error with its information (R200). -/
  kind : ErrorKind
  /-- The port the command stood on. -/
  agent : Agent
  /-- The opcode value of the command (R84, R85). -/
  opcode : Nat
  deriving DecidableEq, Repr

/-- Why a step ends the run with a fault: the construction failures, which make no instance
(R121, R203). -/
inductive Fault where
  /-- Code 1, raised by CONSTRUCT and CONSTRUCT_FROM when the hint rounds to more than `2^(W-1)`
  (R103). Safe: the spec's own "no first state". -/
  | capacityOverflow (hint : Nat)
  /-- Code 2, raised by CONSTRUCT_FROM when `L > UCAP` (R122). Safe: the spec's own. -/
  | initTooLong (length ucap : Nat)
  deriving DecidableEq, Repr

/-- Why a step has no meaning. -/
inductive Refusal where
  /-- Raised by exec for an instruction without a meaning. Safe. -/
  | notModelled (mnemonic : String)
  /-- Raised by every command but CONSTRUCT and CONSTRUCT_FROM, and by clock edges, before
  construction: "there is no state, no port and no later step" (R121). Safe. -/
  | noInstance
  /-- Raised by CONSTRUCT and CONSTRUCT_FROM on an instance that exists: construction is "done once,
  before any other step" (R120, R213). Safe. -/
  | alreadyBuilt
  /-- Raised by SYNC_W2R and SYNC_R2W when the agent has no enabled step (R180 to R182): the spec has
  no such step. Safe. -/
  | agentDisabled
  /-- Raised by step for a request whose word is wider than its format (R82). Safe. -/
  | noCommand (e : DecodeError)
  deriving DecidableEq, Repr

/-- The slot array's written slots: index and value, indices strictly rising. An index that is not
listed is an unwritten slot: it has no value (10_state R31, 91 N9; log 7). -/
abbrev Memory := List (Nat × Nat)

/-- The ghost counters (10_state R36): for stating invariants, read by no result. -/
structure Ghost where
  /-- NW: `L` plus accepted ENQ since the last RESET, or accepted ENQ since a later FLUSH_END. -/
  nw : Nat
  /-- NR: successful DEQ since then. -/
  nr : Nat
  /-- NWs: the NW that `wsync` reflects. -/
  nws : Nat
  /-- NWc: the NW that `wr_shadow` reflects. -/
  nwc : Nat
  /-- NRs: the NR that `rsync` reflects. -/
  nrs : Nat
  /-- NRc: the NR that `rd_shadow` reflects. -/
  nrc : Nat
  deriving DecidableEq, Repr

/-- The result signals of the step just taken (30_encoding R82, R87): the MODEL's own field, log 4. -/
structure Outputs where
  /-- `p_ok` -/
  pOk : Bool
  /-- `p_val`, `W` bits -/
  pVal : Nat
  /-- `p_dbg`, `4W + 2` bits -/
  pDbg : Nat
  /-- `p_err` -/
  pErr : Bool
  /-- `c_ok` -/
  cOk : Bool
  /-- `c_data`, `DW` bits -/
  cData : Nat
  /-- `c_val`, `W` bits -/
  cVal : Nat
  /-- `c_dbg`, `4W + 2` bits -/
  cDbg : Nat
  /-- `c_err` -/
  cErr : Bool
  /-- `h_err` -/
  hErr : Bool
  deriving DecidableEq, Repr

/-- Every result field driven to zero, `c_data` to `ZERO` (R87). -/
def Outputs.zero : Outputs :=
  { pOk := false, pVal := 0, pDbg := 0, pErr := false, cOk := false, cData := zeroDatum,
    cVal := 0, cDbg := 0, cErr := false, hErr := false }

/-- The state (10_state R20), with the parameters and constants of the instance, and the model's own
`built`, `wgrayPrev`, `rgrayPrev`, `out` and `inputs`. -/
structure State where
  /-- The parameters (00_scope section 4); no step writes them. -/
  cfg : Params
  /-- Whether the instance exists (R121; log 6). -/
  built : Bool
  /-- CAP, the allocated slot count; MASK and UCAP are `cap - 1` (R21). -/
  cap : Nat
  /-- INIT, of length `L`; empty for CONSTRUCT (R7). -/
  init : List Nat
  /-- `write` (R22). -/
  write : Nat
  /-- `read` (R23). -/
  read : Nat
  /-- `rd_shadow`, DUAL only (R26). -/
  rdShadow : Nat
  /-- `wr_shadow`, DUAL only (R27). -/
  wrShadow : Nat
  /-- `rsync`, DUAL only (R28). -/
  rsync : Nat
  /-- `wsync`, DUAL only (R29). -/
  wsync : Nat
  /-- `wgray`, `AW` bits, DUAL only (R30). -/
  wgray : Nat
  /-- `rgray`, `AW` bits, DUAL only (R30). -/
  rgray : Nat
  /-- The chain `w2r[0 .. NSYNC-1]`, stage 0 first, DUAL only (R30). -/
  w2r : List Nat
  /-- The chain `r2w[0 .. NSYNC-1]`, stage 0 first, DUAL only (R30). -/
  r2w : List Nat
  /-- What `wgray` held before its latest change, as long as no edge of `rclk` has sampled it since
  (R186; the MODEL's own, log 9). -/
  wgrayPrev : Nat
  /-- What `rgray` held before its latest change, as long as no edge of `wclk` has sampled it since
  (R186; the MODEL's own, log 9). -/
  rgrayPrev : Nat
  /-- `slot[0 .. CAP-1]` (R31). -/
  slots : Memory
  /-- `flushing` (R33). -/
  flushing : Bool
  /-- `fault` (R34), oldest entry first. -/
  fault : List ErrorEntry
  /-- The ghost counters (R36). -/
  ghost : Ghost
  /-- The results of the step just taken (R82, R87; the MODEL's own, log 4). -/
  out : Outputs
  /-- What the environment presents, the next event first (R25; the MODEL's own, log 2). -/
  inputs : List Event
  deriving DecidableEq, Repr

/-- The state after reset (R41, R230) of the instance `CONSTRUCT 3` makes under the configuration of
the spec's vectors (95_test_vectors 2.5: `w=0 r=0 rs=0 ws=0 rsync=0 wsync=0 slots=[_, _, _, _]`);
W, DW and HINT are DESIGN CHOICES (log 1). -/
def State.reset : State :=
  { cfg := Params.default
    built := true
    cap := 4
    init := []
    write := 0
    read := 0
    rdShadow := 0
    wrShadow := 0
    rsync := 0
    wsync := 0
    wgray := 0
    rgray := 0
    w2r := [0, 0]
    r2w := [0, 0]
    wgrayPrev := 0
    rgrayPrev := 0
    slots := []
    flushing := false
    fault := []
    ghost := { nw := 0, nr := 0, nws := 0, nwc := 0, nrs := 0, nrc := 0 }
    out := Outputs.zero
    inputs := [] }

end Sys2Proof.Machine
end

