-- ==== Sys2Proof/Machine/Arith.lean ====
section
/-!
DEFINITION. Capacity rounding, the wrapping adder with its index mask, and the Gray code
(40_index_arith). Pure functions of their arguments and the constants of the machine.
-/

namespace Sys2Proof.Machine

/-- The smallest of `p, 2p, 4p, ...` that is at least `n`, looked for at most `fuel` times. -/
def doubleUntil (n : Nat) : Nat → Nat → Nat
  | 0, p => p
  | fuel + 1, p => if n ≤ p then p else doubleUntil n fuel (2 * p)

/-- `nextPow2(n)` (R101): CapacityOverflow when `n > 2^(W-1)` (R103), 2 when `n <= 2`, otherwise the
smallest power of two not less than `n`. -/
def nextPow2 (w n : Nat) : Except Fault Nat :=
  if n > 2 ^ (w - 1) then .error (.capacityOverflow n) else .ok (doubleUntil n w 2)

/-- `AW = log2(CAP)` (R7). -/
def addrWidth (cap : Nat) : Nat := Nat.log2 cap

/-- `MASK = CAP - 1` (R21). -/
def mask (cap : Nat) : Nat := cap - 1

/-- `capacity() = UCAP = CAP - 1` (R114, R21). -/
def usableCap (cap : Nat) : Nat := cap - 1

/-- `inc(c) = (c +w 1) & MASK` (R104). -/
def inc (w cap : Nat) (c : Nat) : Nat := addW w c 1 &&& mask cap

/-- `bin2gray(b) = b ^ (b >> 1)` of the `AW`-bit field of `b` (R110). -/
def bin2gray (aw : Nat) (b : Nat) : Nat := (b % 2 ^ aw) ^^^ ((b % 2 ^ aw) >>> 1)

/-- `gray2bin(g)` (R111): bit `i` is the exclusive OR of the bits `g[AW-1]` down to `g[i]`, that is,
the exclusive OR of `g` shifted right by `0, 1, ..., AW-1`. -/
def gray2bin : (aw : Nat) → (g : Nat) → Nat
  | 0, _ => 0
  | aw + 1, g => (g % 2 ^ (aw + 1)) ^^^ gray2bin aw ((g % 2 ^ (aw + 1)) >>> 1)

/-- `sample(g)` (45_cdc_sync R186): each bit that differs between the old and the new value is
captured new where `capture` has a one and old where it has a zero. -/
def sampleGray (old new capture : Nat) : Nat := old ^^^ ((old ^^^ new) &&& capture)

end Sys2Proof.Machine
end

