-- ==== Sys2Proof/Machine/Flags.lean ====
section
/-!
DEFINITION. Full, empty and length: there are no stored flags, each is computed from two cursor
values and the mask (10_state R32; 40_index_arith R100, R105 to R107); and the level outputs (R83).
-/

namespace Sys2Proof.Machine

/-- `is_empty(r, w) = (r == w)` (R105). -/
def isEmpty (r wr : Nat) : Bool := r == wr

/-- `is_full(r, w) = (inc(w) == r)` (R106). -/
def isFull (w cap : Nat) (r wr : Nat) : Bool := inc w cap wr == r

/-- `len(r, w) = (w -w r) & MASK` (R107). -/
def len (w cap : Nat) (r wr : Nat) : Nat := subW w wr r &&& mask cap

/-- The producer domain's view of `read`: the register `rsync`, or the wire `read` when
CLOCKING = SINGLE (10_state R28, R44). -/
def State.readView (s : State) : Nat := if s.cfg.isDual then s.rsync else s.read

/-- The consumer domain's view of `write`: the register `wsync`, or the wire `write` when
CLOCKING = SINGLE (10_state R29, R44). -/
def State.writeView (s : State) : Nat := if s.cfg.isDual then s.wsync else s.write

/-- `rd_shadow`, to be read as `read` when CLOCKING = SINGLE (R44). -/
def State.readShadow (s : State) : Nat := if s.cfg.isDual then s.rdShadow else s.read

/-- `wr_shadow`, to be read as `write` when CLOCKING = SINGLE (R44). -/
def State.writeShadow (s : State) : Nat := if s.cfg.isDual then s.wrShadow else s.write

/-- `inc` at the state's width and mask. -/
def State.next (s : State) (c : Nat) : Nat := inc s.cfg.w s.cap c

/-- The level output `p_full = is_full(rsync, write)` (R83). -/
def State.pFull (s : State) : Bool := isFull s.cfg.w s.cap s.readView s.write

/-- The level output `c_empty = is_empty(read, wsync)` (R83). -/
def State.cEmpty (s : State) : Bool := isEmpty s.read s.writeView

end Sys2Proof.Machine
end

