-- ==== Sys2Proof/Machine/Operands.lean ====
section
/-!
DEFINITION. What a command takes in and gives back: the data operand (30_encoding R86), the pair of
cursor values a status command uses (44_status R160), the DBG word (R166), and the result signals
of a port (R87).
-/

namespace Sys2Proof.Machine

/-- The `DW`-bit value on a data field: an operand is used whole, and a field holds `DW` bits
(R82, R86). -/
def dataField (dw : Nat) (v : Nat) : Nat := v % 2 ^ dw

/-- `view(X)`, the pair `(rv, wv)` of R160. -/
def State.portView (s : State) : Agent → Nat × Nat
  | .producer => (s.readView, s.write)
  | .consumer => (s.read, s.writeView)
  | .host => (s.read, s.write)

/-- `{a, b}` where `b` has `n` bits (R12). -/
def concatBits (n a b : Nat) : Nat := a * 2 ^ n + b % 2 ^ n

/-- One bit as a number. -/
def bit (b : Bool) : Nat := if b then 1 else 0

/-- The DBG word `{ full, empty, cap, size, rd, wr }` of `4W + 2` bits (R166). -/
def dbgWord (w cap : Nat) (rv wv : Nat) : Nat :=
  let flags := concatBits 1 (bit (isFull w cap rv wv)) (bit (isEmpty rv wv))
  let withCap := concatBits w flags cap
  let withSize := concatBits w withCap (len w cap rv wv)
  concatBits w (concatBits w withSize rv) wv

/-- The boolean result `ok` on a port, every other result field zero (R87). -/
def okOn (a : Agent) (b : Bool) : Outputs :=
  match a with
  | .producer => { Outputs.zero with pOk := b }
  | .consumer => { Outputs.zero with cOk := b }
  | .host => Outputs.zero

/-- The numeric result `val` on a port, every other result field zero (R87). -/
def valOn (a : Agent) (v : Nat) : Outputs :=
  match a with
  | .producer => { Outputs.zero with pVal := v }
  | .consumer => { Outputs.zero with cVal := v }
  | .host => Outputs.zero

/-- The DBG result `dbg` on a port, every other result field zero (R87). -/
def dbgOn (a : Agent) (v : Nat) : Outputs :=
  match a with
  | .producer => { Outputs.zero with pDbg := v }
  | .consumer => { Outputs.zero with cDbg := v }
  | .host => Outputs.zero

/-- `err = 1` on a port, every other result field zero (R87, last row). -/
def errOn (a : Agent) : Outputs :=
  match a with
  | .producer => { Outputs.zero with pErr := true }
  | .consumer => { Outputs.zero with cErr := true }
  | .host => { Outputs.zero with hErr := true }

/-- The pair `(c_data, c_ok)` of a DEQ that returned an item (R87). -/
def itemOut (item : Nat) : Outputs := { Outputs.zero with cOk := true, cData := item }

end Sys2Proof.Machine
end

