-- ==== Sys2Proof/Machine/Ops.lean ====
section
/-!
DEFINITION. The named operations over the slot array and the registers: SlotRead and SlotWrite,
raising an error, the checks every command makes first, the two reloads, the two publishing stores,
and the state after construction or reset.
-/

namespace Sys2Proof.Machine

/-- The value at an index, none for an unwritten slot. -/
def Memory.read : Memory → Nat → Option Nat
  | [], _ => none
  | (j, v) :: rest, i => if i = j then some v else Memory.read rest i

/-- Put a value at an index, keeping the indices strictly rising. -/
def Memory.write : Memory → Nat → Nat → Memory
  | [], i, v => [(i, v)]
  | (j, u) :: rest, i, v =>
    if i < j then (i, v) :: (j, u) :: rest
    else if i = j then (i, v) :: rest
    else (j, u) :: Memory.write rest i v

/-- Whether every listed index is above `low`, strictly rising. -/
def Memory.risingFrom : Nat → Memory → Bool
  | _, [] => true
  | low, (i, _) :: rest => decide (low ≤ i) && Memory.risingFrom (i + 1) rest

/-- The canonical form: indices strictly rising. An unlisted slot has no value, so no entry can equal
what an unlisted index reads as. -/
def Memory.wf (m : Memory) : Bool := Memory.risingFrom 0 m

/-- `SlotRead(i)` (R55). -/
def slotRead (s : State) (i : Nat) : Except ErrorKind Nat :=
  if s.cap ≤ i then .error (.indexOutOfRange i)
  else match Memory.read s.slots i with
    | none => .error (.unwrittenSlot i)
    | some v => .ok v

/-- `SlotWrite(i, v)` (R56), `v` a `DW`-bit value. -/
def slotWrite (s : State) (i : Nat) (v : Nat) : Except ErrorKind State :=
  if s.cap ≤ i then .error (.indexOutOfRange i)
  else .ok { s with slots := Memory.write s.slots i (dataField s.cfg.dw v) }

/-- `raise` (R14, R201): the state before the step plus one entry in `fault`; `err = 1` and zero
results at the port. There is no trap entry and nothing returns from one (R206). -/
def raise (kind : ErrorKind) (a : Agent) (opcode : Nat) (s : State) : State :=
  { s with fault := s.fault ++ [{ kind := kind, agent := a, opcode := opcode }], out := errOn a }

/-- A step gives its results and leaves the state `s` (R87). -/
def answer (o : Outputs) (s : State) : Host.Outcome State Fault Refusal := .next { s with out := o }

/-- Before construction there is no instance and no port (R121). -/
def onInstance (s : State) (k : Host.Outcome State Fault Refusal) : Host.Outcome State Fault Refusal :=
  if s.built then k else .refused .noInstance

/-- The checks of a port command other than NOP, after decode (R207): `flushing = 1` raises FlushRace
(R209), otherwise the command's own rule. -/
def portCommand (a : Agent) (opcode : Nat) (s : State) (k : Host.Outcome State Fault Refusal) :
    Host.Outcome State Fault Refusal :=
  onInstance s (if s.flushing then .next (raise .flushRace a opcode s) else k)

/-- An illegal encoding (R88): IllegalCommand, whatever `flushing` is (R207). -/
def illegalCommand (a : Agent) (opcode : Nat) (s : State) : Host.Outcome State Fault Refusal :=
  onInstance s (.next (raise .illegalCommand a opcode s))

/-- The value of a register that exists only when CLOCKING = DUAL (R44; log 13). -/
def State.whenDual (s : State) (v : Nat) : Nat := if s.cfg.isDual then v else 0

/-- `bin2gray` at the state's `AW`. -/
def State.gray (s : State) (c : Nat) : Nat := bin2gray (addrWidth s.cap) c

/-- The value of a Gray register that belongs to a cursor value, DUAL only (R30). -/
def State.grayReg (s : State) (c : Nat) : Nat := s.whenDual (s.gray c)

/-- A synchronizer chain with every stage at one value, DUAL only (R30, R41). -/
def State.settledChain (s : State) (c : Nat) : List Nat :=
  if s.cfg.isDual then List.replicate s.cfg.nsync (s.gray c) else []

/-- Whether ENQ reloads `rd_shadow` (R141). -/
def State.reloadsReadShadow (s : State) (cand : Nat) : Bool :=
  s.cfg.isDual && (s.cfg.shadow == .alwaysReload || cand == s.rdShadow)

/-- The acquire load of the read cursor into `rd_shadow` when ENQ makes it (R141); ghost
`NRc <- NRs`. -/
def reloadReadShadow (s : State) (cand : Nat) : State :=
  if s.reloadsReadShadow cand then
    { s with rdShadow := s.rsync, ghost := { s.ghost with nrc := s.ghost.nrs } }
  else s

/-- Whether DEQ reloads `wr_shadow` (R151). -/
def State.reloadsWriteShadow (s : State) : Bool :=
  s.cfg.isDual && (s.cfg.shadow == .alwaysReload || s.read == s.wrShadow)

/-- The acquire load of the write cursor into `wr_shadow` when DEQ makes it (R151); ghost
`NWc <- NWs`. -/
def reloadWriteShadow (s : State) : State :=
  if s.reloadsWriteShadow then
    { s with wrShadow := s.wsync, ghost := { s.ghost with nwc := s.ghost.nws } }
  else s

/-- The ghost counters after an accepted ENQ (R36). -/
def Ghost.afterEnq (g : Ghost) (dual : Bool) : Ghost :=
  if dual then { g with nw := g.nw + 1 }
  else { g with nw := g.nw + 1, nws := g.nws + 1, nwc := g.nwc + 1 }

/-- The ghost counters after a successful DEQ (R36). -/
def Ghost.afterDeq (g : Ghost) (dual : Bool) : Ghost :=
  if dual then { g with nr := g.nr + 1 }
  else { g with nr := g.nr + 1, nrs := g.nrs + 1, nrc := g.nrc + 1 }

/-- The release store of `write`, its Gray register in the same step (R141, R30). -/
def publishWrite (s : State) (cand : Nat) : State :=
  { s with
    write := cand
    wgray := s.grayReg cand
    wgrayPrev := s.wgray
    ghost := s.ghost.afterEnq s.cfg.isDual }

/-- The release store of `read`, its Gray register in the same step (R151, R30). -/
def publishRead (s : State) (nxt : Nat) : State :=
  { s with
    read := nxt
    rgray := s.grayReg nxt
    rgrayPrev := s.rgray
    ghost := s.ghost.afterDeq s.cfg.isDual }

/-- The stores of an accepted ENQ: the slot, then the cursor (R141, R61). -/
def enqCommit (s : State) (cand : Nat) (item : Nat) : Except ErrorKind State :=
  match slotWrite s cand item with
  | .error e => .error e
  | .ok t => .ok (publishWrite t cand)

/-- The clearing store of a successful DEQ, when CLEAR_ON_READ (R151, R154). -/
def clearSlot (s : State) (i : Nat) : Except ErrorKind State :=
  if s.cfg.clearOnRead then slotWrite s i zeroDatum else .ok s

/-- The accesses of a successful DEQ: load the slot, clear it, then store the cursor (R151, R63);
the state and the item. -/
def deqCommit (s : State) : Except ErrorKind (State × Nat) :=
  match slotRead s (s.next s.read) with
  | .error e => .error e
  | .ok item =>
    match clearSlot s (s.next s.read) with
    | .error e => .error e
    | .ok t => .ok (publishRead t (s.next s.read), item)

/-- The slots of the reset state: `slot[first], slot[first + 1], ...` hold the given values. -/
def initialSlots (dw : Nat) : (first : Nat) → List Nat → Memory
  | _, [] => []
  | i, v :: rest => (i, dataField dw v) :: initialSlots dw (i + 1) rest

/-- The reset state of R41 with the given CAP and INIT, on the state that holds the parameters, the
fault record and the inputs. -/
def applyReset (s : State) (cap : Nat) (init : List Nat) : State :=
  let t := { s with cap := cap, init := init }
  { t with
    built := true
    write := init.length
    read := 0
    rdShadow := 0
    wrShadow := t.whenDual init.length
    rsync := 0
    wsync := t.whenDual init.length
    wgray := t.grayReg init.length
    rgray := 0
    w2r := t.settledChain init.length
    r2w := t.settledChain 0
    wgrayPrev := t.grayReg init.length
    rgrayPrev := 0
    slots := initialSlots t.cfg.dw 1 init
    flushing := false
    ghost := { nw := init.length, nr := 0, nws := init.length, nwc := init.length, nrs := 0, nrc := 0 }
    out := Outputs.zero }

/-- The state after FLUSH_END (R127, R41): cursors, shadows, views, Gray registers, chains and ghost
counters at 0; the slots, `fault` and the constants unchanged. -/
def applyFlush (s : State) : State :=
  { s with
    write := 0
    read := 0
    rdShadow := 0
    wrShadow := 0
    rsync := 0
    wsync := 0
    wgray := 0
    rgray := 0
    w2r := s.settledChain 0
    r2w := s.settledChain 0
    wgrayPrev := 0
    rgrayPrev := 0
    flushing := false
    ghost := { nw := 0, nr := 0, nws := 0, nwc := 0, nrs := 0, nrc := 0 }
    out := Outputs.zero }

end Sys2Proof.Machine
end

