-- ==== Sys2Proof/Machine/Dequeue.lean ====
section
/-!
DEFINITION. The consumer's command DEQ (43_dequeue).
-/

namespace Sys2Proof.Machine

/-- DEQ after the checks (R151): reload the shadow if the rule says so; empty, then `(ZERO, false)` and
nothing else; otherwise load, clear, release, `(item, true)`. An error of SlotRead or SlotWrite
discards the step's writes (R14). -/
def deqBody (s : State) : Host.Outcome State Fault Refusal :=
  let t := reloadWriteShadow s
  if t.read == t.writeShadow then answer (okOn .consumer false) t
  else
    match deqCommit t with
    | .error e => .next (raise e .consumer 0x2 s)
    | .ok (u, item) => answer (itemOut item) u

/-- DEQ (R151). -/
def execDeq (s : State) : Host.Outcome State Fault Refusal :=
  portCommand .consumer 0x2 s (deqBody s)

end Sys2Proof.Machine
end

