-- ==== Sys2Proof/Machine/Enqueue.lean ====
section
/-!
DEFINITION. The producer's command ENQ (42_enqueue).
-/

namespace Sys2Proof.Machine

/-- ENQ after the checks (R141): reload the shadow if the rule says so; full, then false and nothing
else; otherwise store, publish, true. An error of SlotWrite discards the step's writes (R14). -/
def enqBody (item : Nat) (s : State) : Host.Outcome State Fault Refusal :=
  let cand := s.next s.write
  let t := reloadReadShadow s cand
  if cand == t.readShadow then answer (okOn .producer false) t
  else
    match enqCommit t cand item with
    | .error e => .next (raise e .producer 0x1 s)
    | .ok u => answer (okOn .producer true) u

/-- ENQ (R141). -/
def execEnq (item : Nat) (s : State) : Host.Outcome State Fault Refusal :=
  portCommand .producer 0x1 s (enqBody item s)

end Sys2Proof.Machine
end

