-- ==== Sys2Proof/Machine/Illegal.lean ====
section
/-!
DEFINITION. The illegal encodings of both ports (30_encoding R88): each raises IllegalCommand with the
opcode value that stood on the port.
-/

namespace Sys2Proof.Machine

/-- A reserved opcode, bit 3 set (R84: `0x8` to `0xF`). -/
def reservedOpcode (low : BitVec 3) : Nat := 0x8 + low.toNat

/-- ILLEGAL.P.DEQ: the opcode of DEQ on the producer port (R88). -/
def execIllegalPDeq (s : State) : Host.Outcome State Fault Refusal :=
  illegalCommand .producer 0x2 s

/-- RESERVED.P (R88). -/
def execReservedP (low : BitVec 3) (s : State) : Host.Outcome State Fault Refusal :=
  illegalCommand .producer (reservedOpcode low) s

/-- ILLEGAL.C.ENQ: the opcode of ENQ on the consumer port (R88). -/
def execIllegalCEnq (s : State) : Host.Outcome State Fault Refusal :=
  illegalCommand .consumer 0x1 s

/-- RESERVED.C (R88). -/
def execReservedC (low : BitVec 3) (s : State) : Host.Outcome State Fault Refusal :=
  illegalCommand .consumer (reservedOpcode low) s

end Sys2Proof.Machine
end

