-- ==== Sys2Proof/Machine/Lifecycle.lean ====
section
/-!
DEFINITION. The host's commands: construction, reset and flush (41_lifecycle).
-/

namespace Sys2Proof.Machine

/-- Construction is done once, before any other step (R120, R213). -/
def onNoInstance (s : State) (k : Host.Outcome State Fault Refusal) :
    Host.Outcome State Fault Refusal :=
  if s.built then .refused .alreadyBuilt else k

/-- CONSTRUCT (R120): a failure makes nothing (R121). -/
def execConstruct (hint : Nat) (s : State) : Host.Outcome State Fault Refusal :=
  onNoInstance s
    (match nextPow2 s.cfg.w hint with
      | .error e => .fault e
      | .ok cap => .next { applyReset s cap [] with fault := [] })

/-- CONSTRUCT_FROM (R122): CapacityOverflow is tested before InitTooLong (R121). -/
def execConstructFrom (init : List Nat) (s : State) : Host.Outcome State Fault Refusal :=
  onNoInstance s
    (match nextPow2 s.cfg.w init.length with
      | .error e => .fault e
      | .ok cap =>
        if init.length > usableCap cap then .fault (.initTooLong init.length (usableCap cap))
        else .next { applyReset s cap init with fault := [] })

/-- RESET (R124): the reset state with the instance's own CAP and INIT; `fault` is kept. -/
def execReset (s : State) : Host.Outcome State Fault Refusal :=
  onInstance s (.next (applyReset s s.cap s.init))

/-- FLUSH_BEGIN (R126). -/
def execFlushBegin (s : State) : Host.Outcome State Fault Refusal :=
  onInstance s (answer Outputs.zero { s with flushing := true })

/-- FLUSH_END (R127): IllegalCommand when no window is open. -/
def execFlushEnd (s : State) : Host.Outcome State Fault Refusal :=
  onInstance s
    (if s.flushing then .next (applyFlush s) else .next (raise .illegalCommand .host 0b10 s))

/-- HNOP (R128). -/
def execHnop (s : State) : Host.Outcome State Fault Refusal := onInstance s (answer Outputs.zero s)

end Sys2Proof.Machine
end

