-- ==== Sys2Proof/Machine/Status.lean ====
section
/-!
DEFINITION. The status commands of both ports (44_status): they read state and write none (R161).
-/

namespace Sys2Proof.Machine

/-- NOP (R167): all-zero results, also while `flushing = 1`. -/
def nopOn (s : State) : Host.Outcome State Fault Refusal :=
  onInstance s (answer Outputs.zero s)

/-- LEN on a port (R162). -/
def lenOn (a : Agent) (s : State) : Host.Outcome State Fault Refusal :=
  portCommand a 0x3 s (answer (valOn a (len s.cfg.w s.cap (s.portView a).1 (s.portView a).2)) s)

/-- ISEMPTY on a port (R163). -/
def isEmptyOn (a : Agent) (s : State) : Host.Outcome State Fault Refusal :=
  portCommand a 0x4 s (answer (okOn a (isEmpty (s.portView a).1 (s.portView a).2)) s)

/-- ISFULL on a port (R164). -/
def isFullOn (a : Agent) (s : State) : Host.Outcome State Fault Refusal :=
  portCommand a 0x5 s (answer (okOn a (isFull s.cfg.w s.cap (s.portView a).1 (s.portView a).2)) s)

/-- CAP on a port (R165): the constant UCAP; it reads no cursor (90_conflicts C4). -/
def capOn (a : Agent) (s : State) : Host.Outcome State Fault Refusal :=
  portCommand a 0x6 s (answer (valOn a (usableCap s.cap)) s)

/-- DBG on a port (R166). -/
def dbgWordOn (a : Agent) (s : State) : Host.Outcome State Fault Refusal :=
  portCommand a 0x7 s (answer (dbgOn a (dbgWord s.cfg.w s.cap (s.portView a).1 (s.portView a).2)) s)

/-- NOP.P (R167). -/
def execNopP (s : State) : Host.Outcome State Fault Refusal := nopOn s

/-- NOP.C (R167). -/
def execNopC (s : State) : Host.Outcome State Fault Refusal := nopOn s

/-- LEN.P (R162). -/
def execLenP (s : State) : Host.Outcome State Fault Refusal := lenOn .producer s

/-- LEN.C (R162). -/
def execLenC (s : State) : Host.Outcome State Fault Refusal := lenOn .consumer s

/-- ISEMPTY.P (R163). -/
def execIsEmptyP (s : State) : Host.Outcome State Fault Refusal := isEmptyOn .producer s

/-- ISEMPTY.C (R163). -/
def execIsEmptyC (s : State) : Host.Outcome State Fault Refusal := isEmptyOn .consumer s

/-- ISFULL.P (R164). -/
def execIsFullP (s : State) : Host.Outcome State Fault Refusal := isFullOn .producer s

/-- ISFULL.C (R164). -/
def execIsFullC (s : State) : Host.Outcome State Fault Refusal := isFullOn .consumer s

/-- CAP.P (R165). -/
def execCapP (s : State) : Host.Outcome State Fault Refusal := capOn .producer s

/-- CAP.C (R165). -/
def execCapC (s : State) : Host.Outcome State Fault Refusal := capOn .consumer s

/-- DBG.P (R166). -/
def execDbgP (s : State) : Host.Outcome State Fault Refusal := dbgWordOn .producer s

/-- DBG.C (R166). -/
def execDbgC (s : State) : Host.Outcome State Fault Refusal := dbgWordOn .consumer s

end Sys2Proof.Machine
end

