-- ==== Sys2Proof/Machine/Sync.lean ====
section
/-!
DEFINITION. The clock-domain crossing (45_cdc_sync): the abstract agents SYNC_W2R and SYNC_R2W
(section 2), the shift of the two Gray-coded chains at an edge of the receiving clock (section 3),
and an ENQ and a DEQ at one instant (20_memory R74, 60_exceptions R207).

The spec gives the crossing in two forms and asks a model for either (R189). This model holds both in
one state: an agent step moves the view, and with it every Gray copy on the way that still held the
old view's code; an edge moves the chain, and with it the view (log 8).
-/

namespace Sys2Proof.Machine

/-- SYNC_W2R is enabled when CLOCKING = DUAL, `flushing = 0` and `wsync != write` (R180). -/
def State.w2rEnabled (s : State) : Bool := s.cfg.isDual && !s.flushing && s.wsync != s.write

/-- SYNC_R2W is enabled when CLOCKING = DUAL, `flushing = 0` and `rsync != read` (R181). -/
def State.r2wEnabled (s : State) : Bool := s.cfg.isDual && !s.flushing && s.rsync != s.read

/-- A Gray copy that held `old` now holds `new`; any other copy is ahead and stays (log 8). -/
def advanceCopy (old new g : Nat) : Nat := if g = old then new else g

/-- SYNC_W2R (R180). -/
def execSyncW2r (s : State) : Host.Outcome State Fault Refusal :=
  onInstance s
    (if s.w2rEnabled then
      answer Outputs.zero
        { s with
          wsync := s.next s.wsync
          w2r := s.w2r.map (advanceCopy (s.gray s.wsync) (s.gray (s.next s.wsync)))
          wgrayPrev := advanceCopy (s.gray s.wsync) (s.gray (s.next s.wsync)) s.wgrayPrev
          ghost := { s.ghost with nws := s.ghost.nws + 1 } }
    else .refused .agentDisabled)

/-- SYNC_R2W (R181). -/
def execSyncR2w (s : State) : Host.Outcome State Fault Refusal :=
  onInstance s
    (if s.r2wEnabled then
      answer Outputs.zero
        { s with
          rsync := s.next s.rsync
          r2w := s.r2w.map (advanceCopy (s.gray s.rsync) (s.gray (s.next s.rsync)))
          rgrayPrev := advanceCopy (s.gray s.rsync) (s.gray (s.next s.rsync)) s.rgrayPrev
          ghost := { s.ghost with nrs := s.ghost.nrs + 1 } }
    else .refused .agentDisabled)

/-- A chain after an edge: stage 0 takes the sampled value, every other stage its predecessor's
(R185). -/
def shiftChain (sampled : Nat) (chain : List Nat) : List Nat := sampled :: chain.dropLast

/-- The output of a chain, decoded: `zext_W(gray2bin(chain[NSYNC-1]))` (R185). -/
def State.chainOutput (s : State) (chain : List Nat) : Nat :=
  gray2bin (addrWidth s.cap) (chain.getLastD 0)

/-- An active edge of `rclk` (R185, R186). Nothing shifts when there is no chain (CLOCKING = SINGLE) or
a flush window is open (90_conflicts C7: the views keep their values; log 10). The ghost NWs moves by
as many positions as the view does (R187). -/
def rclkEdge (capture : Nat) (s : State) : Host.Outcome State Fault Refusal :=
  onInstance s
    (if s.cfg.isDual && !s.flushing then
      let chain := shiftChain (sampleGray s.wgrayPrev s.wgray capture) s.w2r
      let view := s.chainOutput chain
      answer Outputs.zero
        { s with
          w2r := chain
          wsync := view
          wgrayPrev := s.wgray
          ghost := { s.ghost with nws := s.ghost.nws + len s.cfg.w s.cap s.wsync view } }
    else answer Outputs.zero s)

/-- An active edge of `wclk` (R185, R186), the mirror image. -/
def wclkEdge (capture : Nat) (s : State) : Host.Outcome State Fault Refusal :=
  onInstance s
    (if s.cfg.isDual && !s.flushing then
      let chain := shiftChain (sampleGray s.rgrayPrev s.rgray capture) s.r2w
      let view := s.chainOutput chain
      answer Outputs.zero
        { s with
          r2w := chain
          rsync := view
          rgrayPrev := s.rgray
          ghost := { s.ghost with nrs := s.ghost.nrs + len s.cfg.w s.cap s.rsync view } }
    else answer Outputs.zero s)

/-- The results of an ENQ and a DEQ at one instant: each port drives its own signals (R82). -/
def bothPorts (p c : Outputs) : Outputs :=
  { p with cOk := c.cOk, cData := c.cData, cVal := c.cVal, cDbg := c.cDbg, cErr := c.cErr }

/-- Go on from a next state; a fault or a refusal stands. -/
def thenStep (o : Host.Outcome State Fault Refusal)
    (k : State → Host.Outcome State Fault Refusal) : Host.Outcome State Fault Refusal :=
  match o with
  | .next t => k t
  | .fault e => .fault e
  | .refused r => .refused r

/-- An ENQ and a DEQ as two steps, in either order (R207, 93 U21); each port shows the results of its own
command. -/
def enqAndDeq (producerFirst : Bool) (item : Nat) (s : State) : Host.Outcome State Fault Refusal :=
  if producerFirst then
    thenStep (execEnq item s) fun t => thenStep (execDeq t) fun u => answer (bothPorts t.out u.out) u
  else
    thenStep (execDeq s) fun t => thenStep (execEnq item t) fun u => answer (bothPorts u.out t.out) u

/-- The DEQ of an edge that also carries an ENQ: it decides on the cursors before the edge (R74). The
state, and the consumer port's results. -/
def deqAtEdge (s : State) : State × Outputs :=
  if s.read == s.write then (s, okOn .consumer false)
  else
    match deqCommit s with
    | .error e => (raise e .consumer 0x2 s, errOn .consumer)
    | .ok (t, item) => (t, itemOut item)

/-- The ENQ of an edge that also carries a DEQ: full is decided on `before`, the state before the edge
(R74), and the stores are added to `s`. -/
def enqAtEdge (before : State) (item : Nat) (s : State) : State × Outputs :=
  let cand := before.next before.write
  if cand == before.read then (s, okOn .producer false)
  else
    match enqCommit s cand item with
    | .error e => (raise e .producer 0x1 s, errOn .producer)
    | .ok t => (t, okOn .producer true)

/-- An ENQ and a DEQ at the same edge of the one clock: both compute from the cursor values before
the edge and both commit (R74, decision D16). -/
def oneClockEdge (item : Nat) (s : State) : Host.Outcome State Fault Refusal :=
  let d := deqAtEdge s
  let e := enqAtEdge s item d.1
  answer (bothPorts e.2 d.2) e.1

/-- An ENQ and a DEQ at the same instant. With one clock that is one edge (R74); with two clocks, and in
a flush window, where both raise FlushRace (R209), they are two steps in either order (R207; log 16). -/
def sameEdge (producerFirst : Bool) (item : Nat) (s : State) : Host.Outcome State Fault Refusal :=
  onInstance s
    (if s.cfg.isDual || s.flushing then enqAndDeq producerFirst item s else oneClockEdge item s)

end Sys2Proof.Machine
end

