-- ==== Sys2Proof/Machine/Dispatch.lean ====
section
/-!
DEFINITION. The dispatch: one arm per constructor of Instr.
-/

namespace Sys2Proof.Machine

def exec (i : Instr) (s : State) : Host.Outcome State Fault Refusal :=
  match i with
  -- port P
  | .nopP => Sys2Proof.Machine.execNopP s
  | .enq item => Sys2Proof.Machine.execEnq item s
  | .lenP => Sys2Proof.Machine.execLenP s
  | .isEmptyP => Sys2Proof.Machine.execIsEmptyP s
  | .isFullP => Sys2Proof.Machine.execIsFullP s
  | .capP => Sys2Proof.Machine.execCapP s
  | .dbgP => Sys2Proof.Machine.execDbgP s
  -- port C
  | .nopC => Sys2Proof.Machine.execNopC s
  | .deq => Sys2Proof.Machine.execDeq s
  | .lenC => Sys2Proof.Machine.execLenC s
  | .isEmptyC => Sys2Proof.Machine.execIsEmptyC s
  | .isFullC => Sys2Proof.Machine.execIsFullC s
  | .capC => Sys2Proof.Machine.execCapC s
  | .dbgC => Sys2Proof.Machine.execDbgC s
  -- port H
  | .hnop => Sys2Proof.Machine.execHnop s
  | .flushBegin => Sys2Proof.Machine.execFlushBegin s
  | .flushEnd => Sys2Proof.Machine.execFlushEnd s
  | .reset => Sys2Proof.Machine.execReset s
  -- ELAB
  | .construct hint => Sys2Proof.Machine.execConstruct hint s
  | .constructFrom init => Sys2Proof.Machine.execConstructFrom init s
  -- the crossing agents
  | .syncW2r => Sys2Proof.Machine.execSyncW2r s
  | .syncR2w => Sys2Proof.Machine.execSyncR2w s
  -- illegal encodings
  | .illegalPDeq => Sys2Proof.Machine.execIllegalPDeq s
  | .reservedP low => Sys2Proof.Machine.execReservedP low s
  | .illegalCEnq => Sys2Proof.Machine.execIllegalCEnq s
  | .reservedC low => Sys2Proof.Machine.execReservedC low s

end Sys2Proof.Machine
end

