-- ==== Sys2Proof/Machine/Fetch.lean ====
section
/-!
DEFINITION. How the machine comes to the next command. Nothing is fetched at an address: the command of
a step is an input from the environment (10_state R25), and the state holds what the environment will
present, as a list of events (log 2).
-/

namespace Sys2Proof.Machine

/-- What the next event asks for: a command to be run, or an outcome that no command of the opcode
table gives. -/
inductive Fetched where
  /-- Run a command on a state. -/
  | run (i : Instr) (s : State)
  /-- The step's outcome is already known: a clock edge, an ENQ and a DEQ at one instant, or a word wider
  than its format. -/
  | done (o : Host.Outcome State Fault Refusal)
  deriving Repr

/-- What one event asks for, on the state without it. -/
def runEvent (e : Event) (s : State) : Fetched :=
  match e with
  | .command r =>
    match decode s.cfg.dw r with
    | .ok i => .run i s
    | .error err => .done (.refused (.noCommand err))
  | .wclkEdge capture => .done (wclkEdge capture s)
  | .rclkEdge capture => .done (rclkEdge capture s)
  | .sameEdge item producerFirst => .done (sameEdge producerFirst item s)

/-- Take the next event. When the environment presents nothing more, the ports are quiescent and
present NOP (R167; log 2). -/
def nextCommand (s : State) : Fetched :=
  match s.inputs with
  | [] => .run .nopP s
  | e :: rest => runEvent e { s with inputs := rest }

/-- Whether a request is the ELAB choice, which is made before the instance exists (R81). -/
def Request.isMaking : Request → Bool
  | .making _ _ _ => true
  | .pcmd _ | .ccmd _ | .hcmd _ | .agent _ => false

/-- Present a request at the next step. Construction is presented only while no instance exists (R120,
R81), so presenting it takes the state before construction. -/
def placeRequest (s : State) (r : Request) : State :=
  { s with inputs := .command r :: s.inputs, built := s.built && !Request.isMaking r }

end Sys2Proof.Machine
end

