-- ==== Sys2Proof/Machine/Step.lean ====
section
/-!
DEFINITION. One step of the machine: take the next event and run it.
-/

namespace Sys2Proof.Machine

/-- One atomic step of one agent (00_scope R15). -/
def step (s : State) : Host.Outcome State Fault Refusal :=
  match nextCommand s with
  | .run i t => exec i t
  | .done o => o

/-- `s` with the command of a word of spec/opcode_table.json presented at the next step (log 14). -/
def State.withFetchWord (s : State) (nbits w : Nat) : State :=
  placeRequest s (Request.ofTableWord s.cfg.dw nbits w)

end Sys2Proof.Machine
end

