-- ==== Sys2Proof/Safety.lean ====
section
/-!
DEFINITION. What counts as a sound state and a safe run, in the terms the statements use: the invariants
of 10_state (R37, R38, R39), the relation of the Gray-coded structure to the cursors (R30, R185, R187),
the queue an instance holds (R39, R71), and running several commands.
-/

namespace Sys2Proof.Machine

/-- The constants of an instance (R7, R101, R103, R122): `CAP = 2^AW`, `1 <= AW <= W - 1`, and INIT
fits the usable capacity. -/
abbrev State.CapOk (s : State) : Prop :=
  s.cap = 2 ^ addrWidth s.cap ∧ 1 ≤ addrWidth s.cap ∧ addrWidth s.cap + 1 ≤ s.cfg.w ∧
    s.init.length ≤ usableCap s.cap

/-- R38: the cursors, shadows and views are in `[0, CAP)`. -/
abbrev State.InRange (s : State) : Prop :=
  s.write < s.cap ∧ s.read < s.cap ∧ s.rdShadow < s.cap ∧ s.wrShadow < s.cap ∧
    s.rsync < s.cap ∧ s.wsync < s.cap

/-- The slot array: canonical form, indices in `[0, CAP)` (R38), `DW`-bit values (R51). -/
abbrev State.SlotsOk (s : State) : Prop :=
  Memory.wf s.slots = true ∧ ∀ c ∈ s.slots, c.1 < s.cap ∧ c.2 < 2 ^ s.cfg.dw

/-- R37, the order of the ghost counters. -/
abbrev Ghost.Ordered (g : Ghost) (ucap : Nat) : Prop :=
  g.nrc ≤ g.nrs ∧ g.nrs ≤ g.nr ∧ g.nr ≤ g.nwc ∧ g.nwc ≤ g.nws ∧ g.nws ≤ g.nw ∧ g.nw ≤ g.nrc + ucap

/-- R37: the copies of a cursor are ordered, and each register is its ghost counter modulo CAP. -/
abbrev State.ViewsOrdered (s : State) : Prop :=
  s.ghost.Ordered (usableCap s.cap) ∧
    s.write = s.ghost.nw % s.cap ∧ s.writeView = s.ghost.nws % s.cap ∧
    s.writeShadow = s.ghost.nwc % s.cap ∧
    s.read = s.ghost.nr % s.cap ∧ s.readView = s.ghost.nrs % s.cap ∧
    s.readShadow = s.ghost.nrc % s.cap

/-- The number of positions from the cursor value `a` forward to the cursor value `b`, modulo CAP. -/
def State.positions (s : State) (a b : Nat) : Nat := (b + (s.cap - a)) % s.cap

/-- The true number of items, `(write - read) mod CAP` (R107, R168). -/
def State.occupancy (s : State) : Nat := s.positions s.read s.write

/-- The index of the `k`-th occupied slot, oldest first, counting from 0 (R39). -/
def State.occupiedSlot (s : State) (k : Nat) : Nat := (s.read + k + 1) % s.cap

/-- R39: every occupied slot holds a value. -/
abbrev State.OccupiedWritten (s : State) : Prop :=
  ∀ k < s.occupancy, (Memory.read s.slots (s.occupiedSlot k)).isSome = true

/-- The queue the instance holds, oldest item first (R39, R71). -/
def State.queue (s : State) : List Nat :=
  (List.range s.occupancy).map fun k => (Memory.read s.slots (s.occupiedSlot k)).getD zeroDatum

/-- How far a Gray copy of a cursor is ahead of the view of that cursor. -/
def State.copyAhead (s : State) (view : Nat) (g : Nat) : Nat :=
  s.positions view (gray2bin (addrWidth s.cap) g)

/-- One direction of the crossing (R30, R185, R187): the Gray register codes the cursor, the chain has
NSYNC stages and decodes to the view, the register's earlier value is the present one or one store
before it, and along the way from the cursor to the view the copies never go forward. -/
abbrev State.CrossingOk (s : State) (cursor view : Nat) (reg prev : Nat) (chain : List Nat) : Prop :=
  reg = s.gray cursor ∧ chain.length = s.cfg.nsync ∧ s.chainOutput chain = view ∧
    (prev = reg ∨ s.gray (s.next (gray2bin (addrWidth s.cap) prev)) = reg) ∧
    (∀ g ∈ prev :: chain, g < 2 ^ addrWidth s.cap) ∧
    List.Pairwise (fun a b => b ≤ a)
      (s.positions view cursor :: (prev :: chain).map (s.copyAhead view))

/-- CLOCKING = SINGLE: the DUAL-only registers do not exist (R44; log 13: held at 0). -/
abbrev State.NoCrossing (s : State) : Prop :=
  s.rdShadow = 0 ∧ s.wrShadow = 0 ∧ s.rsync = 0 ∧ s.wsync = 0 ∧ s.wgray = 0 ∧ s.rgray = 0 ∧
    s.w2r = [] ∧ s.r2w = [] ∧ s.wgrayPrev = 0 ∧ s.rgrayPrev = 0

/-- The DUAL-only registers. -/
abbrev State.StructureOk (s : State) : Prop :=
  if s.cfg.isDual = true then
    s.CrossingOk s.write s.wsync s.wgray s.wgrayPrev s.w2r ∧
      s.CrossingOk s.read s.rsync s.rgray s.rgrayPrev s.r2w
  else s.NoCrossing

/-- Everything that holds of an instance between steps (R37, R38, R39, R30). -/
abbrev State.InstanceInv (s : State) : Prop :=
  s.CapOk ∧ s.InRange ∧ s.SlotsOk ∧ s.ViewsOrdered ∧ s.OccupiedWritten ∧ s.StructureOk

/-- The invariant of the machine: the parameters meet the spec's constraints, and an instance that
exists is sound. -/
abbrev State.Inv (s : State) : Prop := s.cfg.Ok ∧ (s.built = true → s.InstanceInv)

/-- R248: neither crossing agent is enabled, as far as the cursors go. -/
abbrev State.Settled (s : State) : Prop := s.writeView = s.write ∧ s.readView = s.read

/-- An instance outside a flush window, where every command follows its own rule (R207, R213). -/
abbrev State.Ready (s : State) : Prop := s.built = true ∧ s.flushing = false

/-- The port and opcode value of a command that may not be issued in a flush window (R209, R200). -/
def flushRaceOf : Instr → Option (Agent × Nat)
  | .enq _ => some (.producer, 0x1)
  | .deq => some (.consumer, 0x2)
  | .lenP => some (.producer, 0x3)
  | .lenC => some (.consumer, 0x3)
  | .isEmptyP => some (.producer, 0x4)
  | .isEmptyC => some (.consumer, 0x4)
  | .isFullP => some (.producer, 0x5)
  | .isFullC => some (.consumer, 0x5)
  | .capP => some (.producer, 0x6)
  | .capC => some (.consumer, 0x6)
  | .dbgP => some (.producer, 0x7)
  | .dbgC => some (.consumer, 0x7)
  | .nopP | .nopC | .hnop | .flushBegin | .flushEnd | .reset => none
  | .construct _ | .constructFrom _ | .syncW2r | .syncR2w => none
  | .illegalPDeq | .reservedP _ | .illegalCEnq | .reservedC _ => none

/-- The status commands and NOP (R161). -/
def isStatus : Instr → Bool
  | .lenP | .isEmptyP | .isFullP | .capP | .dbgP | .nopP => true
  | .lenC | .isEmptyC | .isFullC | .capC | .dbgC | .nopC => true
  | .enq _ | .deq | .hnop | .flushBegin | .flushEnd | .reset => false
  | .construct _ | .constructFrom _ | .syncW2r | .syncR2w => false
  | .illegalPDeq | .reservedP _ | .illegalCEnq | .reservedC _ => false

/-- The port a command stands on; none for the ELAB choice and the crossing agents. -/
def portOf : Instr → Option Agent
  | .nopP | .enq _ | .lenP | .isEmptyP | .isFullP | .capP | .dbgP => some .producer
  | .illegalPDeq | .reservedP _ => some .producer
  | .nopC | .deq | .lenC | .isEmptyC | .isFullC | .capC | .dbgC => some .consumer
  | .illegalCEnq | .reservedC _ => some .consumer
  | .hnop | .flushBegin | .flushEnd | .reset => some .host
  | .construct _ | .constructFrom _ | .syncW2r | .syncR2w => none

/-- The commands that set the cursors anew: construction, RESET and FLUSH_END (R238). -/
def setsCursors : Instr → Bool
  | .flushEnd | .reset | .construct _ | .constructFrom _ => true
  | .nopP | .enq _ | .lenP | .isEmptyP | .isFullP | .capP | .dbgP => false
  | .nopC | .deq | .lenC | .isEmptyC | .isFullC | .capC | .dbgC => false
  | .hnop | .flushBegin | .syncW2r | .syncR2w => false
  | .illegalPDeq | .reservedP _ | .illegalCEnq | .reservedC _ => false

/-- The item an accepted ENQ put in, given the state after it: at most one. -/
def acceptedItem (i : Instr) (after : State) : List Nat :=
  match i with
  | .enq item => if after.out.pOk then [item % 2 ^ after.cfg.dw] else []
  | _ => []

/-- The item a successful DEQ returned, given the state after it: at most one. -/
def returnedItem (i : Instr) (after : State) : List Nat :=
  match i with
  | .deq => if after.out.cOk then [after.out.cData] else []
  | _ => []

/-- Run commands and collect the accepted items, the returned items and the end state, as long as each
gives a next state (R71). -/
def runLog : List Instr → State → Option (List Nat × List Nat × State)
  | [], s => some ([], [], s)
  | i :: rest, s =>
    match exec i s with
    | .next t =>
      match runLog rest t with
      | some (ins, outs, u) => some (acceptedItem i t ++ ins, returnedItem i t ++ outs, u)
      | none => none
    | .fault _ => none
    | .refused _ => none

/-- Run commands one after the other, as long as each gives a next state. -/
def execAll : List Instr → State → Host.Outcome State Fault Refusal
  | [], s => .next s
  | i :: rest, s =>
    match exec i s with
    | .next t => execAll rest t
    | .fault e => .fault e
    | .refused r => .refused r

/-- Take a number of steps, as long as each gives a next state. -/
def runSteps : Nat → State → Host.Outcome State Fault Refusal
  | 0, s => .next s
  | n + 1, s =>
    match step s with
    | .next t => runSteps n t
    | .fault e => .fault e
    | .refused r => .refused r

/-- The state without the results of the step just taken. -/
def State.quiet (s : State) : State := { s with out := Outputs.zero }

/-- What the abstract agents of 45_cdc_sync section 2 speak of: the state without the chains and the
Gray registers' earlier values, and without the results of the step just taken (R189). -/
def State.abstractPart (s : State) : State :=
  { s with w2r := [], r2w := [], wgrayPrev := 0, rgrayPrev := 0, out := Outputs.zero }

/-- The state without the shadows, their ghosts and the policy that reloads them (R146, R156). -/
def State.withoutShadows (s : State) : State :=
  { s with
    cfg := { s.cfg with shadow := .refreshOnMiss }
    rdShadow := 0
    wrShadow := 0
    ghost := { s.ghost with nrc := 0, nwc := 0 } }

/-- The state without the slot array and the choice to clear a slot after a read (R154). -/
def State.withoutSlots (s : State) : State :=
  { s with cfg := { s.cfg with clearOnRead := true }, slots := [] }

end Sys2Proof.Machine
end

