-- ==== Sys2Proof/Certificates/Slice0/Obligations.lean ====
section
/-!
DEFINITION. The statements for the provers. Each docstring names the rule of spec/ it formalises.
-/

open Sys2Proof Sys2Proof.Machine

/-! ## Encoding -/

/-- R82, R84, R85, R88, R93: decoding the request that presents a well-formed command gives the command,
for every command, every operand and every slot width `DW`. -/
def Obligations.DecodeEncodeRoundTrip : Prop :=
  ∀ (dw : Nat) (i : Instr), i.wellFormed dw = true → decode dw (encode dw i) = .ok i

/-- R84: the opcode map of ports P and C, whatever stands on `p_data`. -/
def Obligations.PortOpcodeMap : Prop :=
  ∀ (dw data : Nat), data < 2 ^ dw →
    (decode dw (pcmdWord dw 0x0 data) = .ok .nopP ∧
      decode dw (pcmdWord dw 0x1 data) = .ok (.enq data) ∧
      decode dw (pcmdWord dw 0x2 data) = .ok .illegalPDeq ∧
      decode dw (pcmdWord dw 0x3 data) = .ok .lenP ∧
      decode dw (pcmdWord dw 0x4 data) = .ok .isEmptyP ∧
      decode dw (pcmdWord dw 0x5 data) = .ok .isFullP ∧
      decode dw (pcmdWord dw 0x6 data) = .ok .capP ∧
      decode dw (pcmdWord dw 0x7 data) = .ok .dbgP ∧
      ∀ low : BitVec 3, decode dw (pcmdWord dw (0x8 + low.toNat) data) = .ok (.reservedP low)) ∧
    (decode dw (.ccmd 0x0) = .ok .nopC ∧
      decode dw (.ccmd 0x1) = .ok .illegalCEnq ∧
      decode dw (.ccmd 0x2) = .ok .deq ∧
      decode dw (.ccmd 0x3) = .ok .lenC ∧
      decode dw (.ccmd 0x4) = .ok .isEmptyC ∧
      decode dw (.ccmd 0x5) = .ok .isFullC ∧
      decode dw (.ccmd 0x6) = .ok .capC ∧
      decode dw (.ccmd 0x7) = .ok .dbgC ∧
      ∀ low : BitVec 3, decode dw (.ccmd (0x8 + low.toNat)) = .ok (.reservedC low))

/-- R85: the opcode map of port H; no value is reserved, and CONSTRUCT and CONSTRUCT_FROM are not values
of `h_op`. -/
def Obligations.HostOpcodeMap : Prop :=
  ∀ (dw w : Nat),
    (decode dw (.hcmd 0b00) = .ok .hnop ∧ decode dw (.hcmd 0b01) = .ok .flushBegin ∧
      decode dw (.hcmd 0b10) = .ok .flushEnd ∧ decode dw (.hcmd 0b11) = .ok .reset) ∧
    (w < 4 → ∃ i ∈ [Instr.hnop, .flushBegin, .flushEnd, .reset], decode dw (.hcmd w) = .ok i)

/-- R92: decoding gives exactly one command (the illegal patterns are commands of the table) for every
request whose word fits its format. That it refuses a word wider than its format, which cannot stand on
a port, is the model's choice (log 12). -/
def Obligations.DecodingIsTotalOnFittingWords : Prop :=
  ∀ (dw : Nat) (r : Request), (∃ i, decode dw r = .ok i) ↔ r.fits dw = true

/-- 95_test_vectors 2.6 to 2.11: words written out from R82 (`DW = 8`: three hex digits, `p_op` then
`p_data`) decode to the command they stand for. -/
def Obligations.WordsOfTheSpecDecode : Prop :=
  decode 8 (.pcmd 0x10A) = .ok (.enq 10) ∧ decode 8 (.pcmd 0x1FF) = .ok (.enq 255) ∧
    decode 8 (.pcmd 0x3AB) = .ok .lenP ∧ decode 8 (.pcmd 0x700) = .ok .dbgP ∧
    decode 8 (.pcmd 0x200) = .ok .illegalPDeq ∧ decode 8 (.pcmd 0x800) = .ok (.reservedP 0) ∧
    decode 8 (.ccmd 0x2) = .ok .deq ∧ decode 8 (.ccmd 0x1) = .ok .illegalCEnq ∧
    decode 8 (.ccmd 0xF) = .ok (.reservedC 7) ∧ decode 8 (.hcmd 0b10) = .ok .flushEnd ∧
    decode 8 (.making 1 0 [7, 8, 9]) = .ok (.constructFrom [7, 8, 9]) ∧
    decode 8 (.agent 1) = .ok .syncR2w

/-- R15, R25: a step runs the event the environment presents next, on the state without it: a command,
a clock edge, an ENQ and a DEQ at one instant; with nothing presented it is a NOP. The list of events is
the model's own (log 2), and so is the refusal, by the name noCommand, of a word wider than its format
(log 12). -/
def Obligations.StepRunsThePresentedEvent : Prop :=
  (∀ s : State, s.inputs = [] → step s = exec .nopP s) ∧
  ∀ (s : State) (rest : List Event),
    (∀ r i, s.inputs = .command r :: rest → decode s.cfg.dw r = .ok i →
      step s = exec i { s with inputs := rest }) ∧
    (∀ r e, s.inputs = .command r :: rest → decode s.cfg.dw r = .error e →
      step s = .refused (.noCommand e)) ∧
    (∀ c, s.inputs = .wclkEdge c :: rest → step s = wclkEdge c { s with inputs := rest }) ∧
    (∀ c, s.inputs = .rclkEdge c :: rest → step s = rclkEdge c { s with inputs := rest }) ∧
    (∀ x p, s.inputs = .sameEdge x p :: rest → step s = sameEdge p x { s with inputs := rest })

/-! ## Index arithmetic and the Gray code -/

/-- R101, R103: `nextPow2(n)` is the least power of two that is at least 2 and at least `n`, it lies in
`[2, 2^(W-1)]`, and it fails exactly when `n > 2^(W-1)`. -/
def Obligations.NextPow2IsTheLeastPowerOfTwo : Prop :=
  ∀ w n : Nat, 2 ≤ w →
    (2 ^ (w - 1) < n → nextPow2 w n = .error (.capacityOverflow n)) ∧
    (n ≤ 2 ^ (w - 1) → ∃ k, nextPow2 w n = .ok (2 ^ k) ∧ 1 ≤ k ∧ k ≤ w - 1 ∧ n ≤ 2 ^ k ∧
      ∀ j, 1 ≤ j → n ≤ 2 ^ j → k ≤ j)

/-- R102: the computation from the most significant one of `n - 1`, and `AW`. -/
def Obligations.NextPow2FromTheTopBit : Prop :=
  ∀ w n : Nat, 2 ≤ w → n ≤ 2 ^ (w - 1) →
    (3 ≤ n → 1 ≤ Nat.log2 (n - 1) ∧ Nat.log2 (n - 1) ≤ w - 2 ∧
      nextPow2 w n = .ok (2 ^ (Nat.log2 (n - 1) + 1)) ∧
      addrWidth (2 ^ (Nat.log2 (n - 1) + 1)) = Nat.log2 (n - 1) + 1) ∧
    (n ≤ 2 → nextPow2 w n = .ok 2 ∧ addrWidth 2 = 1)

/-- R104: `inc(c) = (c + 1) mod CAP` for every `W`-bit `c`, in `[0, CAP)`; one more below `CAP - 1`, and
0 at `CAP - 1` and at `2^W - 1`. -/
def Obligations.IncIsSuccessorModuloCap : Prop :=
  ∀ w k c : Nat, 1 ≤ k → k + 1 ≤ w → c < 2 ^ w →
    inc w (2 ^ k) c < 2 ^ k ∧ inc w (2 ^ k) c = (c + 1) % 2 ^ k ∧
    (c < 2 ^ k - 1 → inc w (2 ^ k) c = c + 1) ∧
    inc w (2 ^ k) (2 ^ k - 1) = 0 ∧ inc w (2 ^ k) (2 ^ w - 1) = 0

/-- R107: `len(r, w)` is in `[0, CAP)` and equals `(w - r) mod CAP`, the difference of the integers. -/
def Obligations.LenIsDifferenceModuloCap : Prop :=
  ∀ w k r v : Nat, 1 ≤ k → k + 1 ≤ w → r < 2 ^ w → v < 2 ^ w →
    len w (2 ^ k) r v < 2 ^ k ∧ (len w (2 ^ k) r v : Int) = ((v : Int) - (r : Int)) % ((2 ^ k : Nat) : Int)

/-- R109: the relations between the predicates, for `r` and `w` in `[0, CAP)`. -/
def Obligations.PredicatesAgreeWithLen : Prop :=
  ∀ w k r v : Nat, 1 ≤ k → k + 1 ≤ w → r < 2 ^ k → v < 2 ^ k →
    (isEmpty r v = true ↔ len w (2 ^ k) r v = 0) ∧
    (isFull w (2 ^ k) r v = true ↔ len w (2 ^ k) r v = usableCap (2 ^ k)) ∧
    ¬ (isEmpty r v = true ∧ isFull w (2 ^ k) r v = true)

/-- R110, R111: the bits of both codes, and that each inverts the other on `AW`-bit values. -/
def Obligations.GrayCodeIsInverted : Prop :=
  ∀ aw b : Nat, b < 2 ^ aw →
    bin2gray aw b < 2 ^ aw ∧ gray2bin aw b < 2 ^ aw ∧
    gray2bin aw (bin2gray aw b) = b ∧ bin2gray aw (gray2bin aw b) = b ∧
    (∀ i, i + 1 < aw →
      (bin2gray aw b).testBit i = (b.testBit i ^^ b.testBit (i + 1)) ∧
      (gray2bin aw b).testBit i = (b.testBit i ^^ (gray2bin aw b).testBit (i + 1))) ∧
    (∀ i, i + 1 = aw → (bin2gray aw b).testBit i = b.testBit i ∧
      (gray2bin aw b).testBit i = b.testBit i)

/-- R112: the codes of `c` and `inc(c)` differ in exactly one bit, the wrap included. -/
def Obligations.AdjacentGrayCodesDifferInOneBit : Prop :=
  ∀ w k c : Nat, 1 ≤ k → k + 1 ≤ w → c < 2 ^ k →
    (∃ j, j < k ∧ bin2gray k c ^^^ bin2gray k (inc w (2 ^ k) c) = 2 ^ j) ∧
    bin2gray k (2 ^ k - 1) = 2 ^ (k - 1) ∧ bin2gray k 0 = 0

/-! ## Construction, reset, flush -/

/-- R120, R41: CONSTRUCT makes the empty instance with `CAP = nextPow2(HINT)`; a hint that rounds past the
index width is CapacityOverflow. -/
def Obligations.ConstructMakesTheEmptyInstance : Prop :=
  ∀ (s : State) (hint : Nat), s.cfg.Ok → s.built = false →
    (2 ^ (s.cfg.w - 1) < hint → exec (.construct hint) s = .fault (.capacityOverflow hint)) ∧
    (hint ≤ 2 ^ (s.cfg.w - 1) → ∃ t, exec (.construct hint) s = .next t ∧
      nextPow2 s.cfg.w hint = .ok t.cap ∧
      t.built = true ∧ t.cfg = s.cfg ∧ t.init = [] ∧ t.inputs = s.inputs ∧
      t.write = 0 ∧ t.read = 0 ∧ t.rdShadow = 0 ∧ t.wrShadow = 0 ∧ t.rsync = 0 ∧ t.wsync = 0 ∧
      t.wgray = 0 ∧ t.rgray = 0 ∧ (∀ g ∈ t.w2r ++ t.r2w, g = 0) ∧
      (s.cfg.isDual = true → t.w2r = List.replicate s.cfg.nsync 0 ∧
        t.r2w = List.replicate s.cfg.nsync 0) ∧
      t.slots = [] ∧ t.flushing = false ∧ t.fault = [] ∧
      t.ghost = { nw := 0, nr := 0, nws := 0, nwc := 0, nrs := 0, nrc := 0 } ∧ t.out = Outputs.zero ∧
      t.cEmpty = true ∧ len t.cfg.w t.cap t.read t.write = 0)

/-- R122, R41: CONSTRUCT_FROM makes the instance that holds INIT in `slot[1 .. L]`, immediately
dequeuable; every other slot is unwritten. -/
def Obligations.ConstructFromMakesTheFilledInstance : Prop :=
  ∀ (s : State) (init : List Nat) (cap : Nat), s.cfg.Ok → s.built = false →
    init.all (datumFits s.cfg.dw) = true → nextPow2 s.cfg.w init.length = .ok cap →
    init.length ≤ usableCap cap →
    ∃ t, exec (.constructFrom init) s = .next t ∧ t.cap = cap ∧ t.init = init ∧
      t.built = true ∧ t.cfg = s.cfg ∧ t.inputs = s.inputs ∧
      t.write = init.length ∧ t.read = 0 ∧ t.rdShadow = 0 ∧ t.rsync = 0 ∧
      (s.cfg.isDual = true → t.wsync = init.length ∧ t.wrShadow = init.length ∧
        t.wgray = bin2gray (addrWidth cap) init.length ∧
        t.w2r = List.replicate s.cfg.nsync (bin2gray (addrWidth cap) init.length) ∧
        t.r2w = List.replicate s.cfg.nsync 0) ∧ t.rgray = 0 ∧
      (∀ k, Memory.read t.slots (k + 1) = init[k]?) ∧ Memory.read t.slots 0 = none ∧
      t.flushing = false ∧ t.fault = [] ∧
      t.ghost = { nw := init.length, nr := 0, nws := init.length, nwc := init.length, nrs := 0, nrc := 0 } ∧
      t.out = Outputs.zero

/-- R122: `L > UCAP` happens exactly when `L` is a power of two and `L >= 2`; those lengths always fail
with InitTooLong and every other length that does not overflow succeeds. -/
def Obligations.ConstructFromFailsAtPowersOfTwo : Prop :=
  ∀ (s : State) (init : List Nat), s.cfg.Ok → s.built = false → init.length ≤ 2 ^ (s.cfg.w - 1) →
    ((∃ k, 1 ≤ k ∧ init.length = 2 ^ k) →
      exec (.constructFrom init) s = .fault (.initTooLong init.length (init.length - 1))) ∧
    ((∀ k, 1 ≤ k → init.length ≠ 2 ^ k) → ∃ t, exec (.constructFrom init) s = .next t)

/-- R103, R121, R203: a construction whose hint or sequence rounds past the index width fails with
CapacityOverflow and makes no state. -/
def Obligations.OverflowingConstructionMakesNothing : Prop :=
  ∀ (s : State) (hint : Nat) (init : List Nat), s.built = false →
    (2 ^ (s.cfg.w - 1) < hint → exec (.construct hint) s = .fault (.capacityOverflow hint)) ∧
    (2 ^ (s.cfg.w - 1) < init.length →
      exec (.constructFrom init) s = .fault (.capacityOverflow init.length))

/-- R120, R121, R213: construction is done once, before any other step. An instance that exists is not
constructed again, and before construction no other command has an instance to act on. (That the model
stops there by name is its own choice, log 6.) -/
def Obligations.ConstructionComesOnceAndFirst : Prop :=
  ∀ (s : State) (hint : Nat) (init : List Nat) (i : Instr),
    (s.built = true → exec (.construct hint) s = .refused .alreadyBuilt ∧
      exec (.constructFrom init) s = .refused .alreadyBuilt) ∧
    (s.built = false → (∀ n, i ≠ .construct n) → (∀ l, i ≠ .constructFrom l) →
      exec i s = .refused .noInstance)

/-- R123: CONSTRUCT_FROM ends where a CONSTRUCT with the same CAP, the ENQ of its items, `L` steps of
SYNC_W2R and a reload of `wr_shadow` end; with one clock there are no SYNC steps and no shadow (R192).
The two end states are compared whole, so the statement also says of the chain `w2r` and of `wgrayPrev`
that they follow the SYNC steps, which is the model's choice (log 8, log 9) and not R123's. -/
def Obligations.ConstructFromEqualsEnqueueing : Prop :=
  ∀ (s t : State) (init : List Nat), s.cfg.Ok → s.built = false →
    exec (.constructFrom init) s = .next t →
    ∃ u v, exec (.construct init.length) s = .next u ∧ u.cap = t.cap ∧
      execAll (init.map Instr.enq ++
        List.replicate (if s.cfg.isDual then init.length else 0) Instr.syncW2r) u = .next v ∧
      t.quiet = { v with
        wrShadow := v.wsync
        ghost := { v.ghost with nwc := v.ghost.nws }
        init := init }.quiet

/-- R124, R41: RESET returns the instance to its constructed state and closes a flush window; `fault` and
the constants are kept, slots outside `1 .. L` become unwritten. RESET is one atomic step, and that both
ports are quiescent around it (R231) is the host's duty, which the model does not check (log 17). That an
element of INIT wider than a slot is cut to `DW` bits is the model's choice (log 12). -/
def Obligations.ResetReturnsToTheConstructedState : Prop :=
  ∀ s : State, s.built = true →
    ∃ t, exec .reset s = .next t ∧ t.fault = s.fault ∧ t.cap = s.cap ∧ t.init = s.init ∧
      t.cfg = s.cfg ∧ t.built = true ∧ t.inputs = s.inputs ∧ t.flushing = false ∧
      t.write = s.init.length ∧ t.read = 0 ∧ t.rdShadow = 0 ∧ t.rsync = 0 ∧ t.rgray = 0 ∧
      (s.cfg.isDual = true → t.wsync = s.init.length ∧ t.wrShadow = s.init.length ∧
        t.wgray = bin2gray (addrWidth s.cap) s.init.length ∧
        t.w2r = List.replicate s.cfg.nsync (bin2gray (addrWidth s.cap) s.init.length) ∧
        t.r2w = List.replicate s.cfg.nsync 0) ∧
      (∀ k, Memory.read t.slots (k + 1) = s.init[k]?.map (· % 2 ^ s.cfg.dw)) ∧
      Memory.read t.slots 0 = none ∧
      t.ghost = { nw := s.init.length, nr := 0, nws := s.init.length, nwc := s.init.length,
                  nrs := 0, nrc := 0 } ∧
      t.out = Outputs.zero

/-- R126: FLUSH_BEGIN writes `flushing` only, and while it is 1 the SYNC agents have no step. -/
def Obligations.FlushBeginOpensTheWindow : Prop :=
  ∀ s : State, s.built = true →
    ∃ t, exec .flushBegin s = .next t ∧ t = { s with flushing := true, out := Outputs.zero } ∧
      ∀ u, exec .syncW2r t ≠ .next u ∧ exec .syncR2w t ≠ .next u

/-- R127: FLUSH_END clears cursors, shadows, views, Gray registers, chains and ghosts and closes the
window; the slots, `fault` and the constants are unchanged; the buffer is empty, and the next ENQ's slot
is `slot[1]`; with no window open it is IllegalCommand and nothing changes. -/
def Obligations.FlushEndEmptiesTheBuffer : Prop :=
  ∀ s : State, s.built = true →
    (s.flushing = false → exec .flushEnd s = .next
      { s with
        fault := s.fault ++ [{ kind := .illegalCommand, agent := .host, opcode := 0b10 }]
        out := { Outputs.zero with hErr := true } }) ∧
    (s.flushing = true → ∃ t, exec .flushEnd s = .next t ∧
      t.write = 0 ∧ t.read = 0 ∧ t.rdShadow = 0 ∧ t.wrShadow = 0 ∧ t.rsync = 0 ∧ t.wsync = 0 ∧
      t.wgray = 0 ∧ t.rgray = 0 ∧ (∀ g ∈ t.w2r ++ t.r2w, g = 0) ∧
      (s.cfg.isDual = true → t.w2r = List.replicate s.cfg.nsync 0 ∧
        t.r2w = List.replicate s.cfg.nsync 0) ∧
      t.ghost = { nw := 0, nr := 0, nws := 0, nwc := 0, nrs := 0, nrc := 0 } ∧ t.flushing = false ∧
      t.slots = s.slots ∧ t.fault = s.fault ∧ t.cap = s.cap ∧ t.init = s.init ∧ t.cfg = s.cfg ∧
      t.built = true ∧ t.inputs = s.inputs ∧ t.out = Outputs.zero ∧
      t.cEmpty = true ∧ len t.cfg.w t.cap t.read t.write = 0 ∧ (s.CapOk → t.next t.write = 1))

/-- R91, R125: FLUSH, the pair of commands with nothing between, leaves an empty buffer whose slots are
not erased. -/
def Obligations.FlushPairLeavesAnEmptyBuffer : Prop :=
  ∀ s : State, s.built = true →
    ∃ t, execAll [.flushBegin, .flushEnd] s = .next t ∧ t.write = 0 ∧ t.read = 0 ∧
      t.cEmpty = true ∧ t.occupancy = 0 ∧ t.queue = [] ∧ t.slots = s.slots ∧ t.fault = s.fault ∧
      t.cap = s.cap ∧ t.flushing = false

/-- R128, R167: HNOP and NOP change nothing, return all-zero results and raise nothing, inside or outside
a flush window. -/
def Obligations.NopsChangeNothing : Prop :=
  ∀ s : State, s.built = true →
    exec .hnop s = .next { s with out := Outputs.zero } ∧
    exec .nopP s = .next { s with out := Outputs.zero } ∧
    exec .nopC s = .next { s with out := Outputs.zero }

/-! ## ENQ and DEQ -/

/-- R141: ENQ, every path: FlushRace in a window; a reload of `rd_shadow`; full, then false and nothing
else; otherwise the slot store, the cursor and true. Three things in it are the model's and not R141's:
`wgrayPrev` keeps the Gray register's earlier value (log 9), `wgray` is 0 with one clock (log 13), and an
item wider than a slot is cut to `DW` bits (log 12). -/
def Obligations.EnqFollowsItsRule : Prop :=
  ∀ (s : State) (item : Nat), s.built = true → s.CapOk → s.write < s.cap →
    let cand := (s.write + 1) % s.cap
    let reload : Bool := s.cfg.isDual && (s.cfg.shadow == .alwaysReload || cand == s.rdShadow)
    let shadow := if reload then s.rsync else s.rdShadow
    let seen := if reload then s.ghost.nrs else s.ghost.nrc
    let peer := if s.cfg.isDual then shadow else s.read
    (s.flushing = true → exec (.enq item) s = .next
      { s with
        fault := s.fault ++ [{ kind := .flushRace, agent := .producer, opcode := 0x1 }]
        out := { Outputs.zero with pErr := true } }) ∧
    (s.flushing = false → cand = peer → exec (.enq item) s = .next
      { s with rdShadow := shadow, ghost := { s.ghost with nrc := seen }, out := Outputs.zero }) ∧
    (s.flushing = false → cand ≠ peer → exec (.enq item) s = .next
      { s with
        rdShadow := shadow
        slots := Memory.write s.slots cand (item % 2 ^ s.cfg.dw)
        write := cand
        wgray := if s.cfg.isDual then bin2gray (addrWidth s.cap) cand else 0
        wgrayPrev := s.wgray
        ghost :=
          if s.cfg.isDual then { s.ghost with nrc := seen, nw := s.ghost.nw + 1 }
          else { s.ghost with nw := s.ghost.nw + 1, nws := s.ghost.nws + 1, nwc := s.ghost.nwc + 1 }
        out := { Outputs.zero with pOk := true } })

/-- R142, R146: in a sound state ENQ returns false exactly when `p_full = 1`; a rejected ENQ then changes
nothing at all (the shadow already equals the view), and an accepted one stores the item at
`inc(write)`; before and after, `NW - NR`, the number of items, is at most UCAP. That an item wider than
a slot is cut to `DW` bits is the model's choice (log 12). -/
def Obligations.EnqIsRejectedExactlyWhenFull : Prop :=
  ∀ (s : State) (item : Nat), s.Inv → s.Ready →
    s.ghost.nw - s.ghost.nr ≤ usableCap s.cap ∧
    ∃ t, exec (.enq item) s = .next t ∧ t.out.pErr = false ∧ (t.out.pOk = false ↔ s.pFull = true) ∧
      t.ghost.nw - t.ghost.nr ≤ usableCap t.cap ∧
      (s.pFull = true → t = { s with out := Outputs.zero }) ∧
      (s.pFull = false → s.ghost.nw - s.ghost.nr < usableCap s.cap ∧
        t.ghost.nw - t.ghost.nr = s.ghost.nw - s.ghost.nr + 1 ∧ t.write = (s.write + 1) % s.cap ∧
        Memory.read t.slots ((s.write + 1) % s.cap) = some (item % 2 ^ s.cfg.dw))

/-- R141, R42, the frame of ENQ: whatever it answers, only `write` and its Gray register, `rd_shadow`,
the slot at `inc(write)`, `fault`, the results and the ghost counters may change; every other slot
reads as before. (`wgrayPrev` and `out` are the model's own fields, log 9 and log 4.) -/
def Obligations.EnqFrame : Prop :=
  ∀ (s t : State) (item : Nat), exec (.enq item) s = .next t →
    (∀ a, a ≠ s.next s.write → Memory.read t.slots a = Memory.read s.slots a) ∧
    t = { s with
      write := t.write
      wgray := t.wgray
      wgrayPrev := t.wgrayPrev
      rdShadow := t.rdShadow
      slots := t.slots
      fault := t.fault
      ghost := t.ghost
      out := t.out }

/-- R151: DEQ, every path: FlushRace in a window; a reload of `wr_shadow`; empty, then `(ZERO, false)` and
nothing else; otherwise the slot load, the clearing store, the cursor and `(item, true)`; an unwritten
slot raises UnwrittenSlot and the step's writes are discarded (R55, R14). Two things in it are the
model's and not R151's: `rgrayPrev` keeps the Gray register's earlier value (log 9), and `rgray` is 0 with
one clock (log 13). -/
def Obligations.DeqFollowsItsRule : Prop :=
  ∀ (s : State) (item : Nat), s.built = true → s.CapOk → s.read < s.cap →
    let nxt := (s.read + 1) % s.cap
    let reload : Bool := s.cfg.isDual && (s.cfg.shadow == .alwaysReload || s.read == s.wrShadow)
    let shadow := if reload then s.wsync else s.wrShadow
    let seen := if reload then s.ghost.nws else s.ghost.nwc
    let peer := if s.cfg.isDual then shadow else s.write
    (s.flushing = true → exec .deq s = .next
      { s with
        fault := s.fault ++ [{ kind := .flushRace, agent := .consumer, opcode := 0x2 }]
        out := { Outputs.zero with cErr := true } }) ∧
    (s.flushing = false → s.read = peer → exec .deq s = .next
      { s with wrShadow := shadow, ghost := { s.ghost with nwc := seen }, out := Outputs.zero }) ∧
    (s.flushing = false → s.read ≠ peer → Memory.read s.slots nxt = none → exec .deq s = .next
      { s with
        fault := s.fault ++ [{ kind := .unwrittenSlot nxt, agent := .consumer, opcode := 0x2 }]
        out := { Outputs.zero with cErr := true } }) ∧
    (s.flushing = false → s.read ≠ peer → Memory.read s.slots nxt = some item → exec .deq s = .next
      { s with
        wrShadow := shadow
        slots := if s.cfg.clearOnRead then Memory.write s.slots nxt 0 else s.slots
        read := nxt
        rgray := if s.cfg.isDual then bin2gray (addrWidth s.cap) nxt else 0
        rgrayPrev := s.rgray
        ghost :=
          if s.cfg.isDual then { s.ghost with nwc := seen, nr := s.ghost.nr + 1 }
          else { s.ghost with nr := s.ghost.nr + 1, nrs := s.ghost.nrs + 1, nrc := s.ghost.nrc + 1 }
        out := { Outputs.zero with cOk := true, cData := item } })

/-- R152, R156: in a sound state DEQ raises nothing and returns `(ZERO, false)` exactly when
`c_empty = 1`; a failed DEQ then changes nothing at all (the shadow already equals the view), and a
successful one returns the item of `slot[inc(read)]` and advances `read`. -/
def Obligations.DeqFailsExactlyWhenEmpty : Prop :=
  ∀ s : State, s.Inv → s.Ready →
    ∃ t, exec .deq s = .next t ∧ t.out.cErr = false ∧ (t.out.cOk = false ↔ s.cEmpty = true) ∧
      (s.cEmpty = true → t = { s with out := Outputs.zero }) ∧
      (s.cEmpty = false → 0 < s.occupancy ∧ t.read = (s.read + 1) % s.cap ∧
        Memory.read s.slots ((s.read + 1) % s.cap) = some t.out.cData)

/-- R151, R42, R58, the frame of DEQ: whatever it answers, only `read` and its Gray register,
`wr_shadow`, the slot at `inc(read)`, `fault`, the results and the ghost counters may change; every
other slot reads as before. (`rgrayPrev` and `out` are the model's own fields, log 9 and log 4.) -/
def Obligations.DeqFrame : Prop :=
  ∀ s t : State, exec .deq s = .next t →
    (∀ a, a ≠ s.next s.read → Memory.read t.slots a = Memory.read s.slots a) ∧
    t = { s with
      read := t.read
      rgray := t.rgray
      rgrayPrev := t.rgrayPrev
      wrShadow := t.wrShadow
      slots := t.slots
      fault := t.fault
      ghost := t.ghost
      out := t.out }

/-! ## Status commands -/

/-- R160, R162: LEN on each port, from the port's own cursor and its view of the other; at most UCAP,
and in a sound state `NW - NRs` on P and `NWs - NR` on C. -/
def Obligations.LenReportsTheViewDistance : Prop :=
  ∀ s : State, s.built = true →
    let lenP := len s.cfg.w s.cap (if s.cfg.isDual then s.rsync else s.read) s.write
    let lenC := len s.cfg.w s.cap s.read (if s.cfg.isDual then s.wsync else s.write)
    (s.flushing = false →
      exec .lenP s = .next { s with out := { Outputs.zero with pVal := lenP } } ∧
      exec .lenC s = .next { s with out := { Outputs.zero with cVal := lenC } }) ∧
    (s.flushing = true → exec .lenP s = .next (raise .flushRace .producer 0x3 s) ∧
      exec .lenC s = .next (raise .flushRace .consumer 0x3 s)) ∧
    lenP ≤ usableCap s.cap ∧ lenC ≤ usableCap s.cap ∧
    (s.Inv → lenP = s.ghost.nw - s.ghost.nrs ∧ lenC = s.ghost.nws - s.ghost.nr ∧
      lenC ≤ s.ghost.nw - s.ghost.nr ∧ s.ghost.nw - s.ghost.nr ≤ lenP)

/-- R83, R163, R164: ISEMPTY and ISFULL on each port, and that the level outputs `p_full` and `c_empty`
are ISFULL.P and ISEMPTY.C. -/
def Obligations.IsEmptyAndIsFullReportThePredicates : Prop :=
  ∀ s : State, s.built = true →
    let rv := if s.cfg.isDual then s.rsync else s.read
    let wv := if s.cfg.isDual then s.wsync else s.write
    (s.flushing = false →
      exec .isEmptyP s = .next { s with out := { Outputs.zero with pOk := isEmpty rv s.write } } ∧
      exec .isEmptyC s = .next { s with out := { Outputs.zero with cOk := isEmpty s.read wv } } ∧
      exec .isFullP s = .next { s with out := { Outputs.zero with pOk := isFull s.cfg.w s.cap rv s.write } } ∧
      exec .isFullC s = .next { s with out := { Outputs.zero with cOk := isFull s.cfg.w s.cap s.read wv } } ∧
      s.pFull = isFull s.cfg.w s.cap rv s.write ∧ s.cEmpty = isEmpty s.read wv) ∧
    (s.flushing = true →
      exec .isEmptyP s = .next (raise .flushRace .producer 0x4 s) ∧
      exec .isEmptyC s = .next (raise .flushRace .consumer 0x4 s) ∧
      exec .isFullP s = .next (raise .flushRace .producer 0x5 s) ∧
      exec .isFullC s = .next (raise .flushRace .consumer 0x5 s))

/-- R165, R114: CAP returns the constant UCAP on both ports. -/
def Obligations.CapReportsTheUsableCapacity : Prop :=
  ∀ s : State, s.built = true →
    (s.flushing = false →
      exec .capP s = .next { s with out := { Outputs.zero with pVal := s.cap - 1 } } ∧
      exec .capC s = .next { s with out := { Outputs.zero with cVal := s.cap - 1 } }) ∧
    (s.flushing = true → exec .capP s = .next (raise .flushRace .producer 0x6 s) ∧
      exec .capC s = .next (raise .flushRace .consumer 0x6 s))

/-- R166: the fields of the DBG word on both ports, bit by bit, and FlushRace in a window. -/
def Obligations.DbgWordHoldsItsFields : Prop :=
  (∀ s : State, s.Ready → s.CapOk → s.InRange →
    ∀ a ∈ [Agent.producer, Agent.consumer],
    let rv := if a = .producer then s.readView else s.read
    let wv := if a = .producer then s.write else s.writeView
    let w := s.cfg.w
    ∃ word,
      (a = .producer → exec .dbgP s = .next { s with out := { Outputs.zero with pDbg := word } }) ∧
      (a = .consumer → exec .dbgC s = .next { s with out := { Outputs.zero with cDbg := word } }) ∧
      word < 2 ^ (4 * w + 2) ∧
      word % 2 ^ w = wv ∧ word / 2 ^ w % 2 ^ w = rv ∧
      word / 2 ^ (2 * w) % 2 ^ w = len w s.cap rv wv ∧ word / 2 ^ (3 * w) % 2 ^ w = s.cap ∧
      word.testBit (4 * w) = isEmpty rv wv ∧ word.testBit (4 * w + 1) = isFull w s.cap rv wv ∧
      ¬ (word.testBit (4 * w) = true ∧ word.testBit (4 * w + 1) = true)) ∧
  ∀ s : State, s.built = true → s.flushing = true →
    exec .dbgP s = .next (raise .flushRace .producer 0x7 s) ∧
    exec .dbgC s = .next (raise .flushRace .consumer 0x7 s)

/-- R161, the frame of the status commands and NOP: they write no state and repeat their result; the only
error is FlushRace, in a flush window, and it only appends to `fault`. -/
def Obligations.StatusCommandsWriteNoState : Prop :=
  ∀ (s t : State) (i : Instr), isStatus i = true → exec i s = .next t →
    (s.flushing = false → t = { s with out := t.out }) ∧
    (s.flushing = true → t = { s with fault := t.fault, out := t.out } ∧
      (t.fault = s.fault ∨ ∃ a op,
        t.fault = s.fault ++ [{ kind := .flushRace, agent := a, opcode := op }])) ∧
    ∃ u, exec i t = .next u ∧ u.out = t.out

/-- R168: the bounds on a snapshot in a sound state, and that both ports are exact in a settled state and
when CLOCKING = SINGLE. -/
def Obligations.SnapshotBounds : Prop :=
  ∀ s : State, s.Inv → s.Ready →
    ∃ lenP lenC emptyP emptyC fullP fullC : State,
      exec .lenP s = .next lenP ∧ exec .lenC s = .next lenC ∧
      exec .isEmptyP s = .next emptyP ∧ exec .isEmptyC s = .next emptyC ∧
      exec .isFullP s = .next fullP ∧ exec .isFullC s = .next fullC ∧
      let occ := s.ghost.nw - s.ghost.nr
      occ = s.occupancy ∧ lenC.out.cVal ≤ occ ∧ occ ≤ lenP.out.pVal ∧
      (emptyP.out.pOk = true → occ = 0) ∧ (fullC.out.cOk = true → occ = usableCap s.cap) ∧
      (fullP.out.pOk = false → occ < usableCap s.cap) ∧ (emptyC.out.cOk = false → 0 < occ) ∧
      ((s.Settled ∨ s.cfg.isDual = false) →
        lenP.out.pVal = occ ∧ lenC.out.cVal = occ ∧
        emptyP.out.pOk = decide (occ = 0) ∧ emptyC.out.cOk = decide (occ = 0) ∧
        fullP.out.pOk = decide (occ = usableCap s.cap) ∧
        fullC.out.cOk = decide (occ = usableCap s.cap))

/-! ## Errors -/

/-- R209: in a flush window every command except NOP on either port raises FlushRace: one entry in
`fault`, `err = 1`, zero results, and nothing else changes. -/
def Obligations.CommandsInAFlushWindowRace : Prop :=
  ∀ (s : State) (i : Instr) (a : Agent) (op : Nat), s.built = true → s.flushing = true →
    flushRaceOf i = some (a, op) →
    exec i s = .next
      { s with fault := s.fault ++ [{ kind := .flushRace, agent := a, opcode := op }], out := errOn a }

/-- R88, R207: an illegal encoding raises IllegalCommand with its opcode value, inside or outside a flush
window, and nothing else changes. -/
def Obligations.IllegalEncodingsRaise : Prop :=
  ∀ (s : State) (low : BitVec 3), s.built = true →
    exec .illegalPDeq s = .next
      { s with
        fault := s.fault ++ [{ kind := .illegalCommand, agent := .producer, opcode := 0x2 }]
        out := { Outputs.zero with pErr := true } } ∧
    exec (.reservedP low) s = .next
      { s with
        fault := s.fault ++ [{ kind := .illegalCommand, agent := .producer, opcode := 0x8 + low.toNat }]
        out := { Outputs.zero with pErr := true } } ∧
    exec .illegalCEnq s = .next
      { s with
        fault := s.fault ++ [{ kind := .illegalCommand, agent := .consumer, opcode := 0x1 }]
        out := { Outputs.zero with cErr := true } } ∧
    exec (.reservedC low) s = .next
      { s with
        fault := s.fault ++ [{ kind := .illegalCommand, agent := .consumer, opcode := 0x8 + low.toNat }]
        out := { Outputs.zero with cErr := true } }

/-- R201, R14: errors are precise. A command that adds to `fault` adds one entry, shows `err = 1` on the
port it stands on with every other result zero, and leaves the rest of the state as it was. -/
def Obligations.ErrorsArePrecise : Prop :=
  ∀ (s t : State) (i : Instr), s.built = true → exec i s = .next t → t.fault ≠ s.fault →
    ∃ e : ErrorEntry, portOf i = some e.agent ∧
      t = { s with fault := s.fault ++ [e], out := errOn e.agent }

/-- R34: `fault` is never cleared: a step of an existing instance only appends to it. -/
def Obligations.FaultRecordOnlyGrows : Prop :=
  ∀ s t : State, s.built = true → step s = .next t → ∃ added, t.fault = s.fault ++ added

/-! ## The crossing -/

/-- R180, R181: an enabled agent moves its view one position toward its source and changes no other view,
cursor, shadow or slot. (The Gray copies on the way follow the view, the model's choice: log 8.) -/
def Obligations.AgentsMoveAViewOnePosition : Prop :=
  ∀ s : State, s.Ready → s.cfg.isDual = true → s.CapOk → s.InRange →
    (s.wsync ≠ s.write → ∃ t, exec .syncW2r s = .next t ∧ t.wsync = (s.wsync + 1) % s.cap ∧
      t = { s with
        wsync := t.wsync
        w2r := t.w2r
        wgrayPrev := t.wgrayPrev
        ghost := { s.ghost with nws := s.ghost.nws + 1 }
        out := Outputs.zero }) ∧
    (s.rsync ≠ s.read → ∃ t, exec .syncR2w s = .next t ∧ t.rsync = (s.rsync + 1) % s.cap ∧
      t = { s with
        rsync := t.rsync
        r2w := t.r2w
        rgrayPrev := t.rgrayPrev
        ghost := { s.ghost with nrs := s.ghost.nrs + 1 }
        out := Outputs.zero })

/-- R182, R192: an agent has a step exactly when CLOCKING = DUAL, `flushing = 0` and its view differs
from its source. (Without one the model stops by name, log 11.) -/
def Obligations.AgentsStepExactlyWhenEnabled : Prop :=
  ∀ s : State, s.built = true →
    ((∃ t, exec .syncW2r s = .next t) ↔
      s.cfg.clocking = .dual ∧ s.flushing = false ∧ s.wsync ≠ s.write) ∧
    ((∃ t, exec .syncR2w s = .next t) ↔
      s.cfg.clocking = .dual ∧ s.flushing = false ∧ s.rsync ≠ s.read)

/-- R182, R65, R37: with `write` (or `read`) at rest, the agent stops being enabled after finitely many
steps, with the view equal to its source; at most UCAP steps, since `NW - NWs` and `NR - NRs` are at most
UCAP. -/
def Obligations.AgentsSettle : Prop :=
  ∀ s : State, s.Inv → s.Ready → s.cfg.isDual = true →
    (∃ n t, n ≤ usableCap s.cap ∧ execAll (List.replicate n .syncW2r) s = .next t ∧
      t.wsync = s.write ∧ t.write = s.write ∧ ∀ u, exec .syncW2r t ≠ .next u) ∧
    (∃ n t, n ≤ usableCap s.cap ∧ execAll (List.replicate n .syncR2w) s = .next t ∧
      t.rsync = s.read ∧ t.read = s.read ∧ ∀ u, exec .syncR2w t ≠ .next u)

/-- R186, R60: each bit of a sampled register is its old or its new value, as the edge happens to capture
it, so a register at rest is captured as it is; and a Gray register sampled while it changes by one
position is captured as the old or the new cursor value, whole. -/
def Obligations.SampledCursorIsOldOrNew : Prop :=
  (∀ g0 g1 capture i : Nat, (sampleGray g0 g1 capture).testBit i =
    if capture.testBit i then g1.testBit i else g0.testBit i) ∧
  (∀ g capture : Nat, sampleGray g g capture = g) ∧
  ∀ w k c capture : Nat, 1 ≤ k → k + 1 ≤ w → c < 2 ^ k →
    let old := bin2gray k c
    let new := bin2gray k (inc w (2 ^ k) c)
    (sampleGray old new capture = old ∧ gray2bin k (sampleGray old new capture) = c) ∨
    (sampleGray old new capture = new ∧ gray2bin k (sampleGray old new capture) = inc w (2 ^ k) c)

/-- R185, R186: an edge of `rclk` shifts the chain by one stage from the sampled Gray register, and the
view is the decoded last stage; an edge of `wclk` is the mirror image; neither writes a cursor, a shadow
or a slot. The values a sample may take besides the present one, `wgrayPrev` and `rgrayPrev`, and their
update at the edge are the model's own (log 9). In a flush window the chains and views keep their values,
as R182 and 90_conflicts C7 say of the views and the model takes of the chains (log 10), and with one
clock there is no chain (R44, R192). -/
def Obligations.EdgesShiftTheChain : Prop :=
  ∀ (s : State) (capture : Nat), s.built = true →
    (s.cfg.isDual = true → s.flushing = false →
      (∃ t, rclkEdge capture s = .next t ∧
        t.w2r = sampleGray s.wgrayPrev s.wgray capture :: s.w2r.dropLast ∧
        t.wsync = gray2bin (addrWidth s.cap) (t.w2r.getLastD 0) ∧
        t = { s with
          w2r := t.w2r
          wsync := t.wsync
          wgrayPrev := s.wgray
          ghost := { s.ghost with nws := t.ghost.nws }
          out := Outputs.zero }) ∧
      (∃ t, wclkEdge capture s = .next t ∧
        t.r2w = sampleGray s.rgrayPrev s.rgray capture :: s.r2w.dropLast ∧
        t.rsync = gray2bin (addrWidth s.cap) (t.r2w.getLastD 0) ∧
        t = { s with
          r2w := t.r2w
          rsync := t.rsync
          rgrayPrev := s.rgray
          ghost := { s.ghost with nrs := t.ghost.nrs }
          out := Outputs.zero })) ∧
    (s.flushing = true ∨ s.cfg.isDual = false →
      rclkEdge capture s = .next { s with out := Outputs.zero } ∧
      wclkEdge capture s = .next { s with out := Outputs.zero })

/-- R187: the structure refines the abstract agents. In a sound state an edge of the receiving clock does
to the state the abstract agents speak of (without the chains and the earlier Gray values, log 8, log 9)
what some number of agent steps, at most UCAP, does. -/
def Obligations.EdgesRefineAgentSteps : Prop :=
  ∀ (s t : State) (capture : Nat), s.Inv → s.Ready → s.cfg.isDual = true →
    (rclkEdge capture s = .next t → ∃ n u, n ≤ usableCap s.cap ∧
      execAll (List.replicate n .syncW2r) s = .next u ∧ t.abstractPart = u.abstractPart) ∧
    (wclkEdge capture s = .next t → ∃ n u, n ≤ usableCap s.cap ∧
      execAll (List.replicate n .syncR2w) s = .next u ∧ t.abstractPart = u.abstractPart)

/-- R187: if `write` stops changing, `wsync` equals it after `NSYNC + 1` edges of `rclk`, whatever the
first edge captured (log 9); the same for `read`, `rsync` and `wclk`. -/
def Obligations.EdgesBringTheViewHome : Prop :=
  ∀ (s : State) (captures : List Nat), s.Inv → s.Ready → s.cfg.isDual = true →
    captures.length = s.cfg.nsync + 1 →
    (∃ t, runSteps (s.cfg.nsync + 1) { s with inputs := captures.map Event.rclkEdge } = .next t ∧
      t.wsync = s.write ∧ t.write = s.write) ∧
    (∃ t, runSteps (s.cfg.nsync + 1) { s with inputs := captures.map Event.wclkEdge } = .next t ∧
      t.rsync = s.read ∧ t.read = s.read)

/-- R74: with one clock the views are the cursors, and an ENQ and a DEQ at the same edge give what ENQ
then DEQ gives when the buffer is not empty, and what DEQ then ENQ gives when it is not full; each
port's result is that of the cursor values before the edge. -/
def Obligations.SameEdgeIsSomeSerialOrder : Prop :=
  ∀ (s : State) (item : Nat) (p : Bool), s.Inv → s.Ready → s.cfg.isDual = false →
    s.readView = s.read ∧ s.writeView = s.write ∧
    ∃ t, sameEdge p item s = .next t ∧ t.out.pOk = !s.pFull ∧ t.out.cOk = !s.cEmpty ∧
      (s.cEmpty = false →
        ∃ u, execAll [.enq item, .deq] s = .next u ∧ t.quiet = u.quiet ∧ t.out.cData = u.out.cData) ∧
      (s.cEmpty = true → t.out.cData = 0) ∧
      (s.pFull = false → ∃ u, execAll [.deq, .enq item] s = .next u ∧ t.quiet = u.quiet)

/-- R207, R72, R209: an ENQ and a DEQ at the same instant are two steps in either order, with two clocks
and in a flush window. In a sound state each port shows what its own command answers; with two clocks
and no window open both orders give the same results and the same state (93_implementation_defined U21);
in a window both raise FlushRace, and the two entries stand in the order of the steps. That one event
carries both steps and names their order is the model's choice (log 16). -/
def Obligations.SameInstantIsTwoStepsInEitherOrder : Prop :=
  ∀ (s : State) (item : Nat) (p : Bool), s.Inv → s.built = true →
    (s.cfg.isDual = true ∨ s.flushing = true) →
    ∃ t e d ed de, sameEdge p item s = .next t ∧
      exec (.enq item) s = .next e ∧ exec .deq e = .next ed ∧
      exec .deq s = .next d ∧ exec (.enq item) d = .next de ∧
      t.out = bothPorts e.out d.out ∧ ed.out = d.out ∧ de.out = e.out ∧
      t.quiet = (if p then ed.quiet else de.quiet) ∧
      (s.flushing = false → ed.quiet = de.quiet) ∧
      (s.flushing = true → t = { s with
        fault := s.fault ++
          (if p then [{ kind := .flushRace, agent := .producer, opcode := 0x1 },
                      { kind := .flushRace, agent := .consumer, opcode := 0x2 }]
           else [{ kind := .flushRace, agent := .consumer, opcode := 0x2 },
                 { kind := .flushRace, agent := .producer, opcode := 0x1 }])
        out := { Outputs.zero with pErr := true, cErr := true } })

/-! ## Invariants and whole-machine rules -/

/-- R41, R230: the state after reset meets the invariant, and is the state CONSTRUCT with HINT 3 makes
(the parameters are the model's choice, log 1). -/
def Obligations.ResetStateIsSound : Prop :=
  State.reset.Inv ∧ State.reset.built = true ∧
    exec (.construct 3) { State.reset with built := false } = .next State.reset

/-- R37, R38, R39, R30: every step keeps the invariant: the views are ordered and are their ghost
counters modulo CAP, every register is in range, every occupied slot holds a value, the slots are in
canonical form, and the Gray registers and chains agree with the cursors and views. (The list form of the
slots is the model's, log 7, the chains beside the SYNC steps log 8, the earlier Gray values log 9, and
the zeros of the DUAL-only registers with one clock log 13.) -/
def Obligations.StepKeepsTheInvariant : Prop :=
  ∀ s t : State, s.Inv → step s = .next t → t.Inv

/-- R38: cursors, shadows and views stay in `[0, CAP)`, on the constants' constraints alone. -/
def Obligations.CursorsStayInRange : Prop :=
  ∀ s t : State, s.cfg.Ok → (s.built = true → s.CapOk ∧ s.InRange) → step s = .next t →
    t.built = true → t.CapOk ∧ t.InRange

/-- The slot array of R31 and R50 is held as a list of the written slots with strictly rising indices,
which is the model's own form (log 7); every step keeps that form. -/
def Obligations.SlotArrayStaysCanonical : Prop :=
  ∀ s t : State, Memory.wf s.slots = true → step s = .next t → Memory.wf t.slots = true

/-- R7, R21, R129: no step changes the constants of an existing instance, CAP with MASK and UCAP, INIT,
or the parameters, or ends it. -/
def Obligations.ConstantsNeverChange : Prop :=
  ∀ s t : State, s.built = true → step s = .next t →
    t.built = true ∧ t.cap = s.cap ∧ t.init = s.init ∧ t.cfg = s.cfg

/-- R238, R22, R23: outside construction, RESET and FLUSH_END a cursor changes only by `inc`, and only by
ENQ and DEQ. -/
def Obligations.CursorsMoveOnePosition : Prop :=
  ∀ (s t : State) (i : Instr), setsCursors i = false → exec i s = .next t →
    (t.write = s.write ∨ ((∃ x, i = .enq x) ∧ t.write = s.next s.write)) ∧
    (t.read = s.read ∨ (i = .deq ∧ t.read = s.next s.read))

/-- R42: a command on the producer port writes no state of the consumer domain, and a command on the
consumer port none of the producer domain. -/
def Obligations.PortsWriteOnlyTheirOwnDomain : Prop :=
  ∀ (s t : State) (i : Instr), exec i s = .next t →
    (portOf i = some .producer → t.read = s.read ∧ t.wrShadow = s.wrShadow ∧ t.wsync = s.wsync ∧
      t.rgray = s.rgray ∧ t.w2r = s.w2r ∧ t.rsync = s.rsync ∧ t.r2w = s.r2w ∧
      t.flushing = s.flushing) ∧
    (portOf i = some .consumer → t.write = s.write ∧ t.rdShadow = s.rdShadow ∧ t.rsync = s.rsync ∧
      t.wgray = s.wgray ∧ t.r2w = s.r2w ∧ t.wsync = s.wsync ∧ t.w2r = s.w2r ∧
      t.flushing = s.flushing)

/-- R71, R39: the instance is a queue. In a sound state an accepted ENQ appends its item to the queue of
occupied slots, a successful DEQ takes the oldest, RESET leaves INIT, FLUSH_END the empty queue, and no
other command and no clock edge changes it. That a value wider than a slot is cut to `DW` bits is the
model's choice (log 12), and the clause on RESET takes it as one step in quiescence, which the model does
not check (R231, log 17). -/
def Obligations.CommandsRefineAQueue : Prop :=
  ∀ s t : State, s.Inv → s.built = true →
    (∀ item, exec (.enq item) s = .next t →
      t.queue = s.queue ++ (if t.out.pOk then [item % 2 ^ s.cfg.dw] else [])) ∧
    (exec .deq s = .next t → s.queue = (if t.out.cOk then [t.out.cData] else []) ++ t.queue) ∧
    (exec .reset s = .next t → t.queue = s.init.map (· % 2 ^ s.cfg.dw)) ∧
    (exec .flushEnd s = .next t → t.queue = if s.flushing then [] else s.queue) ∧
    (∀ i, setsCursors i = false → (∀ x, i ≠ .enq x) → i ≠ .deq → exec i s = .next t →
      t.queue = s.queue) ∧
    (∀ c, rclkEdge c s = .next t ∨ wclkEdge c s = .next t → t.queue = s.queue)

/-- R71, R158: FIFO order over a run that records no fault. From a sound state, over any commands but
construction, RESET and FLUSH_END, what was queued followed by the items accepted is what was returned
followed by what is queued: no loss, no duplication, no reordering. That an item wider than a slot is cut
to `DW` bits is the model's choice (log 12). -/
def Obligations.FifoOrderOverRuns : Prop :=
  ∀ (is : List Instr) (s u : State) (ins outs : List Nat), s.Inv → s.built = true →
    (∀ i ∈ is, setsCursors i = false) → runLog is s = some (ins, outs, u) → u.fault = s.fault →
    s.queue ++ ins = outs ++ u.queue

/-- R146, R156: the policy SHADOW and the shadows themselves never change a result. Two sound states that
agree on everything but the shadows and the policy answer every command with the same results and
agree again afterwards. -/
def Obligations.ShadowPolicyIsUnobservable : Prop :=
  ∀ (s s' t : State) (i : Instr), s.Inv → s'.Inv → s.withoutShadows = s'.withoutShadows →
    exec i s = .next t →
    ∃ t', exec i s' = .next t' ∧ t'.out = t.out ∧ t.withoutShadows = t'.withoutShadows

/-- R154, R62: CLEAR_ON_READ and the contents of slots that are not occupied never reach a port. Two
sound states that agree on everything but the slots and CLEAR_ON_READ, and hold the same queue, answer
every command with the same results and agree again afterwards. -/
def Obligations.ClearingIsUnobservable : Prop :=
  ∀ (s s' t : State) (i : Instr), s.Inv → s'.Inv → s.withoutSlots = s'.withoutSlots →
    s.queue = s'.queue → exec i s = .next t →
    ∃ t', exec i s' = .next t' ∧ t'.out = t.out ∧ t.withoutSlots = t'.withoutSlots ∧
      t.queue = t'.queue
end

