-- ==== Sys2Proof/Laws/Memory.lean ====
section
/-!
SUPPORT. The laws of the slot array: a read after a write, the canonical form, and the slots that
construction fills.
-/

namespace Sys2Proof.Machine

/-- A read of the index just written gives the value written. -/
@[simp] theorem memory_read_write_same (m : Memory) (i : Nat) (v : Nat) :
    Memory.read (Memory.write m i v) i = some v := by
  induction m with
  | nil => simp [Memory.write, Memory.read]
  | cons c rest ih =>
    obtain ⟨j, u⟩ := c
    simp only [Memory.write]
    split
    · simp [Memory.read]
    · split
      · simp [Memory.read]
      · rename_i _ hne
        simp [Memory.read, hne, ih]

/-- A write leaves the read of every other index alone. -/
theorem memory_read_write_other (m : Memory) (i k : Nat) (v : Nat) (h : k ≠ i) :
    Memory.read (Memory.write m i v) k = Memory.read m k := by
  induction m with
  | nil => simp [Memory.write, Memory.read, h]
  | cons c rest ih =>
    obtain ⟨j, u⟩ := c
    simp only [Memory.write]
    split
    · simp [Memory.read, h]
    · split
      · rename_i _ hij
        subst hij
        simp [Memory.read, h]
      · simp [Memory.read, ih]

/-- Raising the lower bound is only a weakening. -/
theorem memory_risingFrom_mono {low low' : Nat} (hle : low ≤ low') :
    ∀ m : Memory, Memory.risingFrom low' m = true → Memory.risingFrom low m = true
  | [], _ => rfl
  | (i, _) :: rest, h => by
    simp only [Memory.risingFrom, Bool.and_eq_true, decide_eq_true_eq] at h ⊢
    exact ⟨by omega, h.2⟩

/-- A write keeps the indices strictly rising, above any bound that the index meets. -/
theorem memory_write_risingFrom (i : Nat) (v : Nat) :
    ∀ (m : Memory) (low : Nat), low ≤ i → Memory.risingFrom low m = true →
      Memory.risingFrom low (Memory.write m i v) = true
  | [], low, hlow, _ => by simp [Memory.write, Memory.risingFrom, hlow]
  | (j, u) :: rest, low, hlow, h => by
    simp only [Memory.risingFrom, Bool.and_eq_true, decide_eq_true_eq] at h
    simp only [Memory.write]
    split
    · simp [Memory.risingFrom, hlow, h.2]
      omega
    · split
      · rename_i _ hij
        subst hij
        simp [Memory.risingFrom, hlow, h.2]
      · simp only [Memory.risingFrom, Bool.and_eq_true, decide_eq_true_eq]
        exact ⟨h.1, memory_write_risingFrom i v rest (j + 1) (by omega) h.2⟩

/-- A write keeps the canonical form. -/
theorem memory_write_wf (m : Memory) (i : Nat) (v : Nat) (h : Memory.wf m = true) :
    Memory.wf (Memory.write m i v) = true :=
  memory_write_risingFrom i v m 0 (Nat.zero_le i) h

/-- The slots that construction fills are in rising order. -/
theorem initialSlots_risingFrom (dw : Nat) :
    ∀ (init : List Nat) (i : Nat), Memory.risingFrom i (initialSlots dw i init) = true
  | [], _ => rfl
  | v :: rest, i => by
    simp [initialSlots, Memory.risingFrom, initialSlots_risingFrom dw rest (i + 1)]

/-- The slots that construction fills are in canonical form. -/
theorem initialSlots_wf (dw i : Nat) (init : List Nat) :
    Memory.wf (initialSlots dw i init) = true :=
  memory_risingFrom_mono (Nat.zero_le i) _ (initialSlots_risingFrom dw init i)

/-- The slots that construction fills: `slot[first + k]` holds the `k`-th item (R41). -/
theorem initialSlots_read (dw : Nat) :
    ∀ (init : List Nat) (i k : Nat),
      Memory.read (initialSlots dw i init) (i + k) = init[k]?.map (dataField dw)
  | [], _, _ => rfl
  | v :: rest, i, 0 => by simp [initialSlots, Memory.read]
  | v :: rest, i, k + 1 => by
    have h := initialSlots_read dw rest (i + 1) k
    rw [show i + (k + 1) = i + 1 + k by omega]
    simp [initialSlots, Memory.read, h]
    omega

/-- The slot array after reset is in canonical form. -/
theorem reset_slots_wf : Memory.wf State.reset.slots = true := rfl

/-- Every entry after a write is the one written or one of before. -/
theorem memory_mem_write {m : Memory} {i : Nat} {v : Nat} {c : Nat × Nat}
    (h : c ∈ Memory.write m i v) : c = (i, v) ∨ c ∈ m := by
  induction m with
  | nil => simp [Memory.write] at h; exact .inl h
  | cons d rest ih =>
    obtain ⟨j, u⟩ := d
    simp only [Memory.write] at h
    split at h
    · simpa using h
    · split at h
      · simp only [List.mem_cons] at h ⊢
        tauto
      · simp only [List.mem_cons] at h ⊢
        rcases h with h | h
        · exact .inr (.inl h)
        · rcases ih h with h | h
          · exact .inl h
          · exact .inr (.inr h)

end Sys2Proof.Machine
end

