-- ==== Sys2Proof/Laws/State.lean ====
section
/-!
SUPPORT. One lemma per field per named update of the state, true by rfl, so that no later proof unfolds
an update.
-/

namespace Sys2Proof.Machine

@[simp] theorem raise_cfg (k : ErrorKind) (a : Agent) (op : Nat) (s : State) :
    (raise k a op s).cfg = s.cfg := rfl
@[simp] theorem raise_built (k : ErrorKind) (a : Agent) (op : Nat) (s : State) :
    (raise k a op s).built = s.built := rfl
@[simp] theorem raise_cap (k : ErrorKind) (a : Agent) (op : Nat) (s : State) :
    (raise k a op s).cap = s.cap := rfl
@[simp] theorem raise_init (k : ErrorKind) (a : Agent) (op : Nat) (s : State) :
    (raise k a op s).init = s.init := rfl
@[simp] theorem raise_write (k : ErrorKind) (a : Agent) (op : Nat) (s : State) :
    (raise k a op s).write = s.write := rfl
@[simp] theorem raise_read (k : ErrorKind) (a : Agent) (op : Nat) (s : State) :
    (raise k a op s).read = s.read := rfl
@[simp] theorem raise_rdShadow (k : ErrorKind) (a : Agent) (op : Nat) (s : State) :
    (raise k a op s).rdShadow = s.rdShadow := rfl
@[simp] theorem raise_wrShadow (k : ErrorKind) (a : Agent) (op : Nat) (s : State) :
    (raise k a op s).wrShadow = s.wrShadow := rfl
@[simp] theorem raise_rsync (k : ErrorKind) (a : Agent) (op : Nat) (s : State) :
    (raise k a op s).rsync = s.rsync := rfl
@[simp] theorem raise_wsync (k : ErrorKind) (a : Agent) (op : Nat) (s : State) :
    (raise k a op s).wsync = s.wsync := rfl
@[simp] theorem raise_wgray (k : ErrorKind) (a : Agent) (op : Nat) (s : State) :
    (raise k a op s).wgray = s.wgray := rfl
@[simp] theorem raise_rgray (k : ErrorKind) (a : Agent) (op : Nat) (s : State) :
    (raise k a op s).rgray = s.rgray := rfl
@[simp] theorem raise_w2r (k : ErrorKind) (a : Agent) (op : Nat) (s : State) :
    (raise k a op s).w2r = s.w2r := rfl
@[simp] theorem raise_r2w (k : ErrorKind) (a : Agent) (op : Nat) (s : State) :
    (raise k a op s).r2w = s.r2w := rfl
@[simp] theorem raise_wgrayPrev (k : ErrorKind) (a : Agent) (op : Nat) (s : State) :
    (raise k a op s).wgrayPrev = s.wgrayPrev := rfl
@[simp] theorem raise_rgrayPrev (k : ErrorKind) (a : Agent) (op : Nat) (s : State) :
    (raise k a op s).rgrayPrev = s.rgrayPrev := rfl
@[simp] theorem raise_slots (k : ErrorKind) (a : Agent) (op : Nat) (s : State) :
    (raise k a op s).slots = s.slots := rfl
@[simp] theorem raise_flushing (k : ErrorKind) (a : Agent) (op : Nat) (s : State) :
    (raise k a op s).flushing = s.flushing := rfl
@[simp] theorem raise_fault (k : ErrorKind) (a : Agent) (op : Nat) (s : State) :
    (raise k a op s).fault = s.fault ++ [{ kind := k, agent := a, opcode := op }] := rfl
@[simp] theorem raise_ghost (k : ErrorKind) (a : Agent) (op : Nat) (s : State) :
    (raise k a op s).ghost = s.ghost := rfl
@[simp] theorem raise_out (k : ErrorKind) (a : Agent) (op : Nat) (s : State) :
    (raise k a op s).out = errOn a := rfl
@[simp] theorem raise_inputs (k : ErrorKind) (a : Agent) (op : Nat) (s : State) :
    (raise k a op s).inputs = s.inputs := rfl

@[simp] theorem publishWrite_cfg (s : State) (c : Nat) :
    (publishWrite s c).cfg = s.cfg := rfl
@[simp] theorem publishWrite_built (s : State) (c : Nat) :
    (publishWrite s c).built = s.built := rfl
@[simp] theorem publishWrite_cap (s : State) (c : Nat) :
    (publishWrite s c).cap = s.cap := rfl
@[simp] theorem publishWrite_init (s : State) (c : Nat) :
    (publishWrite s c).init = s.init := rfl
@[simp] theorem publishWrite_write (s : State) (c : Nat) :
    (publishWrite s c).write = c := rfl
@[simp] theorem publishWrite_read (s : State) (c : Nat) :
    (publishWrite s c).read = s.read := rfl
@[simp] theorem publishWrite_rdShadow (s : State) (c : Nat) :
    (publishWrite s c).rdShadow = s.rdShadow := rfl
@[simp] theorem publishWrite_wrShadow (s : State) (c : Nat) :
    (publishWrite s c).wrShadow = s.wrShadow := rfl
@[simp] theorem publishWrite_rsync (s : State) (c : Nat) :
    (publishWrite s c).rsync = s.rsync := rfl
@[simp] theorem publishWrite_wsync (s : State) (c : Nat) :
    (publishWrite s c).wsync = s.wsync := rfl
@[simp] theorem publishWrite_wgray (s : State) (c : Nat) :
    (publishWrite s c).wgray = s.grayReg c := rfl
@[simp] theorem publishWrite_rgray (s : State) (c : Nat) :
    (publishWrite s c).rgray = s.rgray := rfl
@[simp] theorem publishWrite_w2r (s : State) (c : Nat) :
    (publishWrite s c).w2r = s.w2r := rfl
@[simp] theorem publishWrite_r2w (s : State) (c : Nat) :
    (publishWrite s c).r2w = s.r2w := rfl
@[simp] theorem publishWrite_wgrayPrev (s : State) (c : Nat) :
    (publishWrite s c).wgrayPrev = s.wgray := rfl
@[simp] theorem publishWrite_rgrayPrev (s : State) (c : Nat) :
    (publishWrite s c).rgrayPrev = s.rgrayPrev := rfl
@[simp] theorem publishWrite_slots (s : State) (c : Nat) :
    (publishWrite s c).slots = s.slots := rfl
@[simp] theorem publishWrite_flushing (s : State) (c : Nat) :
    (publishWrite s c).flushing = s.flushing := rfl
@[simp] theorem publishWrite_fault (s : State) (c : Nat) :
    (publishWrite s c).fault = s.fault := rfl
@[simp] theorem publishWrite_ghost (s : State) (c : Nat) :
    (publishWrite s c).ghost = s.ghost.afterEnq s.cfg.isDual := rfl
@[simp] theorem publishWrite_out (s : State) (c : Nat) :
    (publishWrite s c).out = s.out := rfl
@[simp] theorem publishWrite_inputs (s : State) (c : Nat) :
    (publishWrite s c).inputs = s.inputs := rfl

@[simp] theorem publishRead_cfg (s : State) (c : Nat) :
    (publishRead s c).cfg = s.cfg := rfl
@[simp] theorem publishRead_built (s : State) (c : Nat) :
    (publishRead s c).built = s.built := rfl
@[simp] theorem publishRead_cap (s : State) (c : Nat) :
    (publishRead s c).cap = s.cap := rfl
@[simp] theorem publishRead_init (s : State) (c : Nat) :
    (publishRead s c).init = s.init := rfl
@[simp] theorem publishRead_write (s : State) (c : Nat) :
    (publishRead s c).write = s.write := rfl
@[simp] theorem publishRead_read (s : State) (c : Nat) :
    (publishRead s c).read = c := rfl
@[simp] theorem publishRead_rdShadow (s : State) (c : Nat) :
    (publishRead s c).rdShadow = s.rdShadow := rfl
@[simp] theorem publishRead_wrShadow (s : State) (c : Nat) :
    (publishRead s c).wrShadow = s.wrShadow := rfl
@[simp] theorem publishRead_rsync (s : State) (c : Nat) :
    (publishRead s c).rsync = s.rsync := rfl
@[simp] theorem publishRead_wsync (s : State) (c : Nat) :
    (publishRead s c).wsync = s.wsync := rfl
@[simp] theorem publishRead_wgray (s : State) (c : Nat) :
    (publishRead s c).wgray = s.wgray := rfl
@[simp] theorem publishRead_rgray (s : State) (c : Nat) :
    (publishRead s c).rgray = s.grayReg c := rfl
@[simp] theorem publishRead_w2r (s : State) (c : Nat) :
    (publishRead s c).w2r = s.w2r := rfl
@[simp] theorem publishRead_r2w (s : State) (c : Nat) :
    (publishRead s c).r2w = s.r2w := rfl
@[simp] theorem publishRead_wgrayPrev (s : State) (c : Nat) :
    (publishRead s c).wgrayPrev = s.wgrayPrev := rfl
@[simp] theorem publishRead_rgrayPrev (s : State) (c : Nat) :
    (publishRead s c).rgrayPrev = s.rgray := rfl
@[simp] theorem publishRead_slots (s : State) (c : Nat) :
    (publishRead s c).slots = s.slots := rfl
@[simp] theorem publishRead_flushing (s : State) (c : Nat) :
    (publishRead s c).flushing = s.flushing := rfl
@[simp] theorem publishRead_fault (s : State) (c : Nat) :
    (publishRead s c).fault = s.fault := rfl
@[simp] theorem publishRead_ghost (s : State) (c : Nat) :
    (publishRead s c).ghost = s.ghost.afterDeq s.cfg.isDual := rfl
@[simp] theorem publishRead_out (s : State) (c : Nat) :
    (publishRead s c).out = s.out := rfl
@[simp] theorem publishRead_inputs (s : State) (c : Nat) :
    (publishRead s c).inputs = s.inputs := rfl

@[simp] theorem applyFlush_cfg (s : State) :
    (applyFlush s).cfg = s.cfg := rfl
@[simp] theorem applyFlush_built (s : State) :
    (applyFlush s).built = s.built := rfl
@[simp] theorem applyFlush_cap (s : State) :
    (applyFlush s).cap = s.cap := rfl
@[simp] theorem applyFlush_init (s : State) :
    (applyFlush s).init = s.init := rfl
@[simp] theorem applyFlush_write (s : State) :
    (applyFlush s).write = 0 := rfl
@[simp] theorem applyFlush_read (s : State) :
    (applyFlush s).read = 0 := rfl
@[simp] theorem applyFlush_rdShadow (s : State) :
    (applyFlush s).rdShadow = 0 := rfl
@[simp] theorem applyFlush_wrShadow (s : State) :
    (applyFlush s).wrShadow = 0 := rfl
@[simp] theorem applyFlush_rsync (s : State) :
    (applyFlush s).rsync = 0 := rfl
@[simp] theorem applyFlush_wsync (s : State) :
    (applyFlush s).wsync = 0 := rfl
@[simp] theorem applyFlush_wgray (s : State) :
    (applyFlush s).wgray = 0 := rfl
@[simp] theorem applyFlush_rgray (s : State) :
    (applyFlush s).rgray = 0 := rfl
@[simp] theorem applyFlush_w2r (s : State) :
    (applyFlush s).w2r = s.settledChain 0 := rfl
@[simp] theorem applyFlush_r2w (s : State) :
    (applyFlush s).r2w = s.settledChain 0 := rfl
@[simp] theorem applyFlush_wgrayPrev (s : State) :
    (applyFlush s).wgrayPrev = 0 := rfl
@[simp] theorem applyFlush_rgrayPrev (s : State) :
    (applyFlush s).rgrayPrev = 0 := rfl
@[simp] theorem applyFlush_slots (s : State) :
    (applyFlush s).slots = s.slots := rfl
@[simp] theorem applyFlush_flushing (s : State) :
    (applyFlush s).flushing = false := rfl
@[simp] theorem applyFlush_fault (s : State) :
    (applyFlush s).fault = s.fault := rfl
@[simp] theorem applyFlush_ghost (s : State) :
    (applyFlush s).ghost = { nw := 0, nr := 0, nws := 0, nwc := 0, nrs := 0, nrc := 0 } := rfl
@[simp] theorem applyFlush_out (s : State) :
    (applyFlush s).out = Outputs.zero := rfl
@[simp] theorem applyFlush_inputs (s : State) :
    (applyFlush s).inputs = s.inputs := rfl

@[simp] theorem applyReset_cfg (s : State) (cap : Nat) (init : List Nat) :
    (applyReset s cap init).cfg = s.cfg := rfl
@[simp] theorem applyReset_built (s : State) (cap : Nat) (init : List Nat) :
    (applyReset s cap init).built = true := rfl
@[simp] theorem applyReset_cap (s : State) (cap : Nat) (init : List Nat) :
    (applyReset s cap init).cap = cap := rfl
@[simp] theorem applyReset_init (s : State) (cap : Nat) (init : List Nat) :
    (applyReset s cap init).init = init := rfl
@[simp] theorem applyReset_write (s : State) (cap : Nat) (init : List Nat) :
    (applyReset s cap init).write = init.length := rfl
@[simp] theorem applyReset_read (s : State) (cap : Nat) (init : List Nat) :
    (applyReset s cap init).read = 0 := rfl
@[simp] theorem applyReset_rdShadow (s : State) (cap : Nat) (init : List Nat) :
    (applyReset s cap init).rdShadow = 0 := rfl
@[simp] theorem applyReset_wrShadow (s : State) (cap : Nat) (init : List Nat) :
    (applyReset s cap init).wrShadow = s.whenDual init.length := rfl
@[simp] theorem applyReset_rsync (s : State) (cap : Nat) (init : List Nat) :
    (applyReset s cap init).rsync = 0 := rfl
@[simp] theorem applyReset_wsync (s : State) (cap : Nat) (init : List Nat) :
    (applyReset s cap init).wsync = s.whenDual init.length := rfl
@[simp] theorem applyReset_wgray (s : State) (cap : Nat) (init : List Nat) :
    (applyReset s cap init).wgray = s.whenDual (bin2gray (addrWidth cap) init.length) := rfl
@[simp] theorem applyReset_rgray (s : State) (cap : Nat) (init : List Nat) :
    (applyReset s cap init).rgray = 0 := rfl
@[simp] theorem applyReset_w2r (s : State) (cap : Nat) (init : List Nat) :
    (applyReset s cap init).w2r = if s.cfg.isDual then List.replicate s.cfg.nsync (bin2gray (addrWidth cap) init.length) else [] := rfl
@[simp] theorem applyReset_r2w (s : State) (cap : Nat) (init : List Nat) :
    (applyReset s cap init).r2w = if s.cfg.isDual then List.replicate s.cfg.nsync (bin2gray (addrWidth cap) 0) else [] := rfl
@[simp] theorem applyReset_wgrayPrev (s : State) (cap : Nat) (init : List Nat) :
    (applyReset s cap init).wgrayPrev = s.whenDual (bin2gray (addrWidth cap) init.length) := rfl
@[simp] theorem applyReset_rgrayPrev (s : State) (cap : Nat) (init : List Nat) :
    (applyReset s cap init).rgrayPrev = 0 := rfl
@[simp] theorem applyReset_slots (s : State) (cap : Nat) (init : List Nat) :
    (applyReset s cap init).slots = initialSlots s.cfg.dw 1 init := rfl
@[simp] theorem applyReset_flushing (s : State) (cap : Nat) (init : List Nat) :
    (applyReset s cap init).flushing = false := rfl
@[simp] theorem applyReset_fault (s : State) (cap : Nat) (init : List Nat) :
    (applyReset s cap init).fault = s.fault := rfl
@[simp] theorem applyReset_ghost (s : State) (cap : Nat) (init : List Nat) :
    (applyReset s cap init).ghost = { nw := init.length, nr := 0, nws := init.length, nwc := init.length, nrs := 0, nrc := 0 } := rfl
@[simp] theorem applyReset_out (s : State) (cap : Nat) (init : List Nat) :
    (applyReset s cap init).out = Outputs.zero := rfl
@[simp] theorem applyReset_inputs (s : State) (cap : Nat) (init : List Nat) :
    (applyReset s cap init).inputs = s.inputs := rfl

@[simp] theorem quiet_cfg (s : State) :
    s.quiet.cfg = s.cfg := rfl
@[simp] theorem quiet_built (s : State) :
    s.quiet.built = s.built := rfl
@[simp] theorem quiet_cap (s : State) :
    s.quiet.cap = s.cap := rfl
@[simp] theorem quiet_init (s : State) :
    s.quiet.init = s.init := rfl
@[simp] theorem quiet_write (s : State) :
    s.quiet.write = s.write := rfl
@[simp] theorem quiet_read (s : State) :
    s.quiet.read = s.read := rfl
@[simp] theorem quiet_rdShadow (s : State) :
    s.quiet.rdShadow = s.rdShadow := rfl
@[simp] theorem quiet_wrShadow (s : State) :
    s.quiet.wrShadow = s.wrShadow := rfl
@[simp] theorem quiet_rsync (s : State) :
    s.quiet.rsync = s.rsync := rfl
@[simp] theorem quiet_wsync (s : State) :
    s.quiet.wsync = s.wsync := rfl
@[simp] theorem quiet_wgray (s : State) :
    s.quiet.wgray = s.wgray := rfl
@[simp] theorem quiet_rgray (s : State) :
    s.quiet.rgray = s.rgray := rfl
@[simp] theorem quiet_w2r (s : State) :
    s.quiet.w2r = s.w2r := rfl
@[simp] theorem quiet_r2w (s : State) :
    s.quiet.r2w = s.r2w := rfl
@[simp] theorem quiet_wgrayPrev (s : State) :
    s.quiet.wgrayPrev = s.wgrayPrev := rfl
@[simp] theorem quiet_rgrayPrev (s : State) :
    s.quiet.rgrayPrev = s.rgrayPrev := rfl
@[simp] theorem quiet_slots (s : State) :
    s.quiet.slots = s.slots := rfl
@[simp] theorem quiet_flushing (s : State) :
    s.quiet.flushing = s.flushing := rfl
@[simp] theorem quiet_fault (s : State) :
    s.quiet.fault = s.fault := rfl
@[simp] theorem quiet_ghost (s : State) :
    s.quiet.ghost = s.ghost := rfl
@[simp] theorem quiet_out (s : State) :
    s.quiet.out = Outputs.zero := rfl
@[simp] theorem quiet_inputs (s : State) :
    s.quiet.inputs = s.inputs := rfl

end Sys2Proof.Machine
end

