-- ==== Sys2Proof/Laws/Ops.lean ====
section
/-!
SUPPORT. One lemma per shared operation that says once everything it can do; proofs cite these instead
of unfolding the operations.
-/

namespace Sys2Proof.Machine

/-- A command answers a next state only on an instance. -/
theorem onInstance_next {s t : State} {k : Host.Outcome State Fault Refusal}
    (h : onInstance s k = .next t) : s.built = true ∧ k = .next t := by
  unfold onInstance at h
  split at h
  · exact ⟨‹_›, h⟩
  · cases h

/-- On an instance, a command is what it is. -/
theorem onInstance_built {s : State} (k : Host.Outcome State Fault Refusal) (h : s.built = true) :
    onInstance s k = k := by simp [onInstance, h]

/-- A port command other than NOP that answers a next state either raised FlushRace or ran its own
rule (R207). -/
theorem portCommand_next {a : Agent} {op : Nat} {s t : State}
    {k : Host.Outcome State Fault Refusal} (h : portCommand a op s k = .next t) :
    s.built = true ∧ ((s.flushing = true ∧ t = raise .flushRace a op s) ∨
      (s.flushing = false ∧ k = .next t)) := by
  obtain ⟨hb, h⟩ := onInstance_next h
  refine ⟨hb, ?_⟩
  split at h
  · exact .inl ⟨‹_›, by cases h; rfl⟩
  · exact .inr ⟨Bool.eq_false_iff.2 ‹_›, h⟩

/-- Outside a flush window a port command is its own rule. -/
theorem portCommand_ready {s : State} (a : Agent) (op : Nat)
    (k : Host.Outcome State Fault Refusal) (hb : s.built = true) (hf : s.flushing = false) :
    portCommand a op s k = k := by simp [portCommand, onInstance, hb, hf]

/-- Inside a flush window a port command raises FlushRace (R209). -/
theorem portCommand_flushing {s : State} (a : Agent) (op : Nat)
    (k : Host.Outcome State Fault Refusal) (hb : s.built = true) (hf : s.flushing = true) :
    portCommand a op s k = .next (raise .flushRace a op s) := by
  simp [portCommand, onInstance, hb, hf]

/-- An illegal encoding raises IllegalCommand on an instance (R88). -/
theorem illegalCommand_next {a : Agent} {op : Nat} {s t : State}
    (h : illegalCommand a op s = .next t) :
    s.built = true ∧ t = raise .illegalCommand a op s := by
  obtain ⟨hb, h⟩ := onInstance_next h
  exact ⟨hb, by cases h; rfl⟩

/-- SlotRead gives a value exactly for an index below CAP whose slot holds it (R55). -/
theorem slotRead_eq_ok {s : State} {i : Nat} {v : Nat} :
    slotRead s i = .ok v ↔ i < s.cap ∧ Memory.read s.slots i = some v := by
  unfold slotRead
  split
  · simp; omega
  · split
    · simp_all
    · simp_all

/-- SlotWrite writes exactly at an index below CAP (R56). -/
theorem slotWrite_eq_ok {s t : State} {i : Nat} {v : Nat} :
    slotWrite s i v = .ok t ↔
      i < s.cap ∧ t = { s with slots := Memory.write s.slots i (dataField s.cfg.dw v) } := by
  unfold slotWrite
  split
  · simp; omega
  · simp only [Except.ok.injEq]
    exact ⟨fun h => ⟨by omega, h.symm⟩, fun h => h.2.symm⟩

/-- The producer's reload: `rd_shadow` and NRc take the view, or nothing changes (R141). -/
theorem reloadReadShadow_cases (s : State) (c : Nat) :
    (s.reloadsReadShadow c = true ∧
      reloadReadShadow s c =
        { s with rdShadow := s.rsync, ghost := { s.ghost with nrc := s.ghost.nrs } }) ∨
    (s.reloadsReadShadow c = false ∧ reloadReadShadow s c = s) := by
  unfold reloadReadShadow
  split
  · exact .inl ⟨‹_›, rfl⟩
  · exact .inr ⟨Bool.eq_false_iff.2 ‹_›, rfl⟩

/-- The consumer's reload: `wr_shadow` and NWc take the view, or nothing changes (R151). -/
theorem reloadWriteShadow_cases (s : State) :
    (s.reloadsWriteShadow = true ∧
      reloadWriteShadow s =
        { s with wrShadow := s.wsync, ghost := { s.ghost with nwc := s.ghost.nws } }) ∨
    (s.reloadsWriteShadow = false ∧ reloadWriteShadow s = s) := by
  unfold reloadWriteShadow
  split
  · exact .inl ⟨‹_›, rfl⟩
  · exact .inr ⟨Bool.eq_false_iff.2 ‹_›, rfl⟩

/-- The stores of an accepted ENQ succeed exactly at an index below CAP. -/
theorem enqCommit_eq_ok {s t : State} {c : Nat} {item : Nat} :
    enqCommit s c item = .ok t ↔
      c < s.cap ∧ t = publishWrite
        { s with slots := Memory.write s.slots c (dataField s.cfg.dw item) } c := by
  constructor
  · intro h
    simp only [enqCommit] at h
    split at h
    · cases h
    · rename_i u hu
      obtain ⟨hc, rfl⟩ := slotWrite_eq_ok.1 hu
      exact ⟨hc, by cases h; rfl⟩
  · rintro ⟨hc, rfl⟩
    simp only [enqCommit, slotWrite_eq_ok.2 ⟨hc, rfl⟩]

/-- The clearing store leaves the slots alone or stores ZERO at an index below CAP (R154). -/
theorem clearSlot_eq_ok {s t : State} {i : Nat} (h : clearSlot s i = .ok t) :
    (s.cfg.clearOnRead = false ∧ t = s) ∨
    (s.cfg.clearOnRead = true ∧ i < s.cap ∧
      t = { s with slots := Memory.write s.slots i (dataField s.cfg.dw zeroDatum) }) := by
  unfold clearSlot at h
  split at h
  · exact .inr ⟨‹_›, slotWrite_eq_ok.1 h⟩
  · exact .inl ⟨Bool.eq_false_iff.2 ‹_›, by cases h; rfl⟩

/-- A successful DEQ loads a written slot below CAP, clears it or not, and advances `read` (R151). -/
theorem deqCommit_eq_ok {s t : State} {item : Nat} (h : deqCommit s = .ok (t, item)) :
    s.next s.read < s.cap ∧ Memory.read s.slots (s.next s.read) = some item ∧
      ∃ u, clearSlot s (s.next s.read) = .ok u ∧ t = publishRead u (s.next s.read) := by
  simp only [deqCommit] at h
  split at h
  · cases h
  · rename_i v hv
    split at h
    · cases h
    · rename_i u hu
      obtain ⟨hlt, hr⟩ := slotRead_eq_ok.1 hv
      cases h
      exact ⟨hlt, hr, u, hu, rfl⟩

/-- Everything ENQ can do after its checks (R141): full, an error of SlotWrite, or accepted. -/
theorem enqBody_cases (item : Nat) (s : State) :
    (s.next s.write = (reloadReadShadow s (s.next s.write)).readShadow ∧
      enqBody item s = answer (okOn .producer false) (reloadReadShadow s (s.next s.write))) ∨
    (∃ e, enqCommit (reloadReadShadow s (s.next s.write)) (s.next s.write) item = .error e ∧
      enqBody item s = .next (raise e .producer 0x1 s)) ∨
    (s.next s.write ≠ (reloadReadShadow s (s.next s.write)).readShadow ∧
      ∃ u, enqCommit (reloadReadShadow s (s.next s.write)) (s.next s.write) item = .ok u ∧
        enqBody item s = answer (okOn .producer true) u) := by
  simp only [enqBody]
  split
  · rename_i heq
    exact .inl ⟨eq_of_beq heq, rfl⟩
  · rename_i hne
    split
    · exact .inr (.inl ⟨_, ‹_›, rfl⟩)
    · exact .inr (.inr ⟨by simpa using hne, _, ‹_›, rfl⟩)

/-- Everything DEQ can do after its checks (R151): empty, an error of SlotRead or SlotWrite, or an
item. -/
theorem deqBody_cases (s : State) :
    ((reloadWriteShadow s).read = (reloadWriteShadow s).writeShadow ∧
      deqBody s = answer (okOn .consumer false) (reloadWriteShadow s)) ∨
    (∃ e, deqCommit (reloadWriteShadow s) = .error e ∧
      deqBody s = .next (raise e .consumer 0x2 s)) ∨
    ((reloadWriteShadow s).read ≠ (reloadWriteShadow s).writeShadow ∧
      ∃ u item, deqCommit (reloadWriteShadow s) = .ok (u, item) ∧
        deqBody s = answer (itemOut item) u) := by
  simp only [deqBody]
  split
  · rename_i heq
    exact .inl ⟨eq_of_beq heq, rfl⟩
  · rename_i hne
    split
    · exact .inr (.inl ⟨_, ‹_›, rfl⟩)
    · exact .inr (.inr ⟨by simpa using hne, _, _, ‹_›, rfl⟩)

/-- Two steps answer a next state exactly when each of them does. -/
theorem thenStep_eq_next {o : Host.Outcome State Fault Refusal}
    {k : State → Host.Outcome State Fault Refusal} {u : State} :
    thenStep o k = .next u ↔ ∃ t, o = .next t ∧ k t = .next u := by
  cases o <;> simp [thenStep]

/-- Everything an ENQ and a DEQ at one instant can do: the two steps in the given order, or both on the
cursors before the edge of the one clock. -/
theorem sameEdge_next {p : Bool} {item : Nat} {s u : State} (h : sameEdge p item s = .next u) :
    s.built = true ∧
      (((s.cfg.isDual = true ∨ s.flushing = true) ∧
        ((p = true ∧ ∃ t v, execEnq item s = .next t ∧ execDeq t = .next v ∧
            u = { v with out := bothPorts t.out v.out }) ∨
         (p = false ∧ ∃ t v, execDeq s = .next t ∧ execEnq item t = .next v ∧
            u = { v with out := bothPorts v.out t.out }))) ∨
       (s.cfg.isDual = false ∧ s.flushing = false ∧ oneClockEdge item s = .next u)) := by
  obtain ⟨hb, h⟩ := onInstance_next h
  refine ⟨hb, ?_⟩
  split at h
  · rename_i hc
    refine .inl ⟨by simpa using hc, ?_⟩
    cases p with
    | true =>
      simp only [enqAndDeq, if_true, thenStep_eq_next] at h
      obtain ⟨t, ht, v, hv, hu⟩ := h
      exact .inl ⟨rfl, t, v, ht, hv, by cases hu; rfl⟩
    | false =>
      simp only [enqAndDeq, Bool.false_eq_true, if_false, thenStep_eq_next] at h
      obtain ⟨t, ht, v, hv, hu⟩ := h
      exact .inr ⟨rfl, t, v, ht, hv, by cases hu; rfl⟩
  · rename_i hc
    simp only [Bool.or_eq_true, not_or, Bool.not_eq_true] at hc
    exact .inr ⟨hc.1, hc.2, h⟩

/-- Everything a step can do: the run of a command, or the outcome of an event that is none. -/
theorem step_cases (s : State) :
    (s.inputs = [] ∧ step s = exec .nopP s) ∨
    (∃ e rest, s.inputs = e :: rest ∧
      ((∃ r i, e = .command r ∧ decode s.cfg.dw r = .ok i ∧
          step s = exec i { s with inputs := rest }) ∨
       (∃ r err, e = .command r ∧ decode s.cfg.dw r = .error err ∧
          step s = .refused (.noCommand err)) ∨
       (∃ c, e = .wclkEdge c ∧ step s = wclkEdge c { s with inputs := rest }) ∨
       (∃ c, e = .rclkEdge c ∧ step s = rclkEdge c { s with inputs := rest }) ∨
       (∃ x p, e = .sameEdge x p ∧ step s = sameEdge p x { s with inputs := rest }))) := by
  cases hin : s.inputs with
  | nil => exact .inl ⟨rfl, by simp [step, nextCommand, hin]⟩
  | cons e rest =>
    refine .inr ⟨e, rest, rfl, ?_⟩
    cases e with
    | command r =>
      cases hd : decode s.cfg.dw r with
      | ok i => exact .inl ⟨r, i, rfl, hd, by simp [step, nextCommand, hin, runEvent, hd]⟩
      | error err => exact .inr (.inl ⟨r, err, rfl, hd, by simp [step, nextCommand, hin, runEvent, hd]⟩)
    | wclkEdge c => exact .inr (.inr (.inl ⟨c, rfl, by simp [step, nextCommand, hin, runEvent]⟩))
    | rclkEdge c => exact .inr (.inr (.inr (.inl ⟨c, rfl, by simp [step, nextCommand, hin, runEvent]⟩)))
    | sameEdge x p =>
      exact .inr (.inr (.inr (.inr ⟨x, p, rfl, by simp [step, nextCommand, hin, runEvent]⟩)))

end Sys2Proof.Machine
end

