-- ==== Sys2Proof/Laws/PerInstr.lean ====
section
/-!
SUPPORT. Statements about every instruction as syntax, one lemma per constructor: the word that presents
a well-formed command has no more bits than its format (30_encoding R82).
-/

namespace Sys2Proof.Laws

/-- A PCMD word of a four-bit opcode and a `DW`-bit datum has `DW + 4` bits. -/
theorem pcmdWord_fits (dw op : Nat) (data : Nat) (hop : op < 16) (hd : data < 2 ^ dw) :
    (pcmdWord dw op data).fits dw = true := by
  have h1 : op * 2 ^ dw + data < (op + 1) * 2 ^ dw := by
    have : (op + 1) * 2 ^ dw = op * 2 ^ dw + 2 ^ dw := by ring
    omega
  have h2 : (op + 1) * 2 ^ dw ≤ 16 * 2 ^ dw := Nat.mul_le_mul_right _ (by omega)
  have h3 : 2 ^ (dw + 4) = 16 * 2 ^ dw := by rw [Nat.pow_add]; ring
  simp only [pcmdWord, Request.fits, decide_eq_true_eq]
  omega

/-- Zero is a `DW`-bit datum. -/
theorem zero_fits (dw : Nat) : 0 < 2 ^ dw := Nat.two_pow_pos dw

/-- The word of a well-formed command fits its format. -/
def EncodeFits.Statement (i : Instr) : Prop :=
  ∀ dw, i.wellFormed dw = true → (encode dw i).fits dw = true

theorem EncodeFits.nopP : EncodeFits.Statement .nopP :=
  fun dw _ => pcmdWord_fits dw 0 0 (by decide) (zero_fits dw)
theorem EncodeFits.enq (item : Nat) : EncodeFits.Statement (.enq item) :=
  fun dw h => pcmdWord_fits dw 1 item (by decide) (by simpa [Instr.wellFormed, datumFits] using h)
theorem EncodeFits.lenP : EncodeFits.Statement .lenP :=
  fun dw _ => pcmdWord_fits dw 3 0 (by decide) (zero_fits dw)
theorem EncodeFits.isEmptyP : EncodeFits.Statement .isEmptyP :=
  fun dw _ => pcmdWord_fits dw 4 0 (by decide) (zero_fits dw)
theorem EncodeFits.isFullP : EncodeFits.Statement .isFullP :=
  fun dw _ => pcmdWord_fits dw 5 0 (by decide) (zero_fits dw)
theorem EncodeFits.capP : EncodeFits.Statement .capP :=
  fun dw _ => pcmdWord_fits dw 6 0 (by decide) (zero_fits dw)
theorem EncodeFits.dbgP : EncodeFits.Statement .dbgP :=
  fun dw _ => pcmdWord_fits dw 7 0 (by decide) (zero_fits dw)
theorem EncodeFits.nopC : EncodeFits.Statement .nopC :=
  fun _ _ => rfl
theorem EncodeFits.deq : EncodeFits.Statement .deq :=
  fun _ _ => rfl
theorem EncodeFits.lenC : EncodeFits.Statement .lenC :=
  fun _ _ => rfl
theorem EncodeFits.isEmptyC : EncodeFits.Statement .isEmptyC :=
  fun _ _ => rfl
theorem EncodeFits.isFullC : EncodeFits.Statement .isFullC :=
  fun _ _ => rfl
theorem EncodeFits.capC : EncodeFits.Statement .capC :=
  fun _ _ => rfl
theorem EncodeFits.dbgC : EncodeFits.Statement .dbgC :=
  fun _ _ => rfl
theorem EncodeFits.hnop : EncodeFits.Statement .hnop :=
  fun _ _ => rfl
theorem EncodeFits.flushBegin : EncodeFits.Statement .flushBegin :=
  fun _ _ => rfl
theorem EncodeFits.flushEnd : EncodeFits.Statement .flushEnd :=
  fun _ _ => rfl
theorem EncodeFits.reset : EncodeFits.Statement .reset :=
  fun _ _ => rfl
theorem EncodeFits.construct (hint : Nat) : EncodeFits.Statement (.construct hint) :=
  fun _ _ => rfl
theorem EncodeFits.constructFrom (init : List Nat) : EncodeFits.Statement (.constructFrom init) :=
  fun _ _ => rfl
theorem EncodeFits.syncW2r : EncodeFits.Statement .syncW2r :=
  fun _ _ => rfl
theorem EncodeFits.syncR2w : EncodeFits.Statement .syncR2w :=
  fun _ _ => rfl
theorem EncodeFits.illegalPDeq : EncodeFits.Statement .illegalPDeq :=
  fun dw _ => pcmdWord_fits dw 2 0 (by decide) (zero_fits dw)
theorem EncodeFits.reservedP (low : BitVec 3) : EncodeFits.Statement (.reservedP low) :=
  fun dw _ => pcmdWord_fits dw (0x8 + low.toNat) 0 (by have := low.isLt; omega) (zero_fits dw)
theorem EncodeFits.illegalCEnq : EncodeFits.Statement .illegalCEnq :=
  fun _ _ => rfl
theorem EncodeFits.reservedC (low : BitVec 3) : EncodeFits.Statement (.reservedC low) :=
  fun dw _ => by have := low.isLt; simp [encode, Request.fits]; omega

end Sys2Proof.Laws
end

