-- ==== Sys2Proof/Tests/Slice0.lean ====
section
/-!
SUPPORT. The model's own tests: the ill-formed terms WellFormed refuses, words written out from
30_encoding, the vectors of 95_test_vectors on single steps, and for every statement with hypotheses a
state and operands that meet them.
-/

namespace Sys2Proof.Tests

open Sys2Proof Sys2Proof.Machine

/-- The next state of an outcome, if it is one. -/
def nextOf : Host.Outcome State Fault Refusal → Option State
  | .next t => some t
  | .fault _ => none
  | .refused _ => none

/-- The fault of an outcome, if it is one. -/
def faultOf : Host.Outcome State Fault Refusal → Option Fault
  | .next _ => none
  | .fault e => some e
  | .refused _ => none

/-- The refusal of an outcome, if it is one. -/
def refusalOf : Host.Outcome State Fault Refusal → Option Refusal
  | .next _ => none
  | .fault _ => none
  | .refused r => some r

/-- The decoded command, if there is one. -/
def decoded (dw : Nat) (r : Request) : Option Instr :=
  match decode dw r with
  | .ok i => some i
  | .error _ => none

/-- The rounded capacity, if there is one. -/
def rounded (w n : Nat) : Option Nat :=
  match nextPow2 w n with
  | .ok c => some c
  | .error _ => none

/-- A few commands run from a state; the state itself if one of them stops. -/
def after (s : State) (is : List Instr) : State := (nextOf (execAll is s)).getD s

/-- A state of the vectors: `CAP = 4`, `W = DW = 8`, DUAL (95_test_vectors, header), with the cursors,
shadows, views and slots of a row. -/
def vec (w r rs ws rsync wsync : Nat) (slots : Memory) : State :=
  { State.reset with
    write := w, read := r, rdShadow := rs, wrShadow := ws, rsync := rsync, wsync := wsync,
    slots := slots }

/-- The same with CLOCKING = SINGLE. -/
def vecSingle (w r : Nat) (slots : Memory) : State :=
  { State.reset with
    cfg := { Params.default with clocking := .single }
    write := w, read := r, w2r := [], r2w := [], slots := slots }

/-- The state before construction. -/
def unbuilt : State := { State.reset with built := false }

/-- A sound state with one item, its view not yet moved. -/
def oneItem : State := after State.reset [.enq 10]

/-- A sound full state, one item seen by the consumer. -/
def full : State := after State.reset [.enq 10, .enq 20, .enq 30, .syncW2r]

/-- A sound state in which the consumer has taken the one item it has seen. -/
def drained : State := after State.reset [.enq 10, .enq 20, .syncW2r, .deq]

/-- A sound state in a flush window. -/
def inWindow : State := after State.reset [.enq 10, .flushBegin]

/-- A sound empty state with one clock. -/
def single : State := vecSingle 0 0 []

/-- A sound state with one clock, one item. -/
def singleOne : State := after single [.enq 5]

/-- A sound full state with one clock. -/
def singleFull : State := after single [.enq 5, .enq 6, .enq 7]

/-! ## WellFormed: an ill-formed term for each check -/

/-- 256 is no 8-bit item (R86). -/
theorem test_wf_refuses_wide_item : (Instr.enq 256).wellFormed 8 = false := by decide

/-- An element of INIT wider than a slot (R7). -/
theorem test_wf_refuses_wide_init : (Instr.constructFrom [1, 300]).wellFormed 8 = false := by decide

/-- Words wider than their formats (R82, R93). -/
theorem test_fits_refuses_wide_words :
    (Request.pcmd 0x1000).fits 8 = false ∧ (Request.ccmd 0x10).fits 8 = false ∧
      (Request.hcmd 4).fits 8 = false ∧ (Request.making 2 0 []).fits 8 = false ∧
      (Request.agent 2).fits 8 = false := by decide

/-- The decoder rejects each of them by name. -/
theorem test_decode_rejects_by_name :
    (decode 8 (.pcmd 0x1000)).toBool = false ∧ (decode 8 (.ccmd 0x10)).toBool = false ∧
      (decode 8 (.hcmd 4)).toBool = false ∧ (decode 8 (.making 2 0 [])).toBool = false ∧
      (decode 8 (.agent 2)).toBool = false := by decide

/-! ## Decoding: words written out bit by bit from R82, R84, R85, R93 at `DW = 8` -/

theorem test_decode_port_p :
    decoded 8 (.pcmd 0b000000000000) = some .nopP ∧ decoded 8 (.pcmd 0b000100001010) = some (.enq 10) ∧
      decoded 8 (.pcmd 0b001100000000) = some .lenP ∧
      decoded 8 (.pcmd 0b010000000000) = some .isEmptyP ∧
      decoded 8 (.pcmd 0b010100000000) = some .isFullP ∧
      decoded 8 (.pcmd 0b011000000000) = some .capP ∧
      decoded 8 (.pcmd 0b011100000000) = some .dbgP := by decide

theorem test_decode_port_c :
    decoded 8 (.ccmd 0b0000) = some .nopC ∧ decoded 8 (.ccmd 0b0010) = some .deq ∧
      decoded 8 (.ccmd 0b0011) = some .lenC ∧ decoded 8 (.ccmd 0b0100) = some .isEmptyC ∧
      decoded 8 (.ccmd 0b0101) = some .isFullC ∧ decoded 8 (.ccmd 0b0110) = some .capC ∧
      decoded 8 (.ccmd 0b0111) = some .dbgC := by decide

theorem test_decode_host_and_agents :
    decoded 8 (.hcmd 0b00) = some .hnop ∧ decoded 8 (.hcmd 0b01) = some .flushBegin ∧
      decoded 8 (.hcmd 0b10) = some .flushEnd ∧ decoded 8 (.hcmd 0b11) = some .reset ∧
      decoded 8 (.making 0 3 []) = some (.construct 3) ∧
      decoded 8 (.making 1 0 [7, 8, 9]) = some (.constructFrom [7, 8, 9]) ∧
      decoded 8 (.agent 0) = some .syncW2r ∧ decoded 8 (.agent 1) = some .syncR2w := by decide

theorem test_decode_illegal :
    decoded 8 (.pcmd 0b001000000000) = some .illegalPDeq ∧
      decoded 8 (.pcmd 0b100100000000) = some (.reservedP 1) ∧
      decoded 8 (.ccmd 0b0001) = some .illegalCEnq ∧
      decoded 8 (.ccmd 0b1111) = some (.reservedC 7) := by decide

/-- "`p_data` is ignored by every command but ENQ: `0x3AB` is `P: LEN` as well" (2.8). -/
theorem test_decode_ignores_p_data : decoded 8 (.pcmd 0x3AB) = some .lenP := by decide

/-- The opcode stands above `DW` bits of data at every width: `DW = 16`. -/
theorem test_decode_other_width : decoded 16 (.pcmd 0x1BEEF) = some (.enq 0xBEEF) := by decide

/-- A word of the table is the first row it matches (log 14). -/
theorem test_table_words :
    decodeTableWord 8 0x1 = some (.enq 0) ∧ decodeTableWord 8 0x2 = some .deq ∧
      decodeTableWord 8 0x8 = some (.reservedP 0) := by decide

/-- The machine runs a placed word as the first command after reset. -/
theorem test_step_runs_placed_word :
    (nextOf (step (State.reset.withFetchWord 8 0x1))).map State.write = some 1 := by decide

/-! ## Index arithmetic and the Gray code (2.1 to 2.4) -/

theorem test_nextPow2 :
    [0, 1, 2, 3, 4, 5, 9, 100, 128, 129, 256].map (rounded 8) =
      [some 2, some 2, some 2, some 4, some 4, some 8, some 16, some 128, some 128, none, none] := by
  decide

theorem test_nextPow2_narrow : [2, 3].map (rounded 2) = [some 2, none] ∧
    [4, 5].map (rounded 3) = [some 4, none] ∧ [32768, 32769].map (rounded 16) = [some 32768, none] := by
  decide

theorem test_inc : [0, 1, 2, 3].map (inc 8 4) = [1, 2, 3, 0] ∧ inc 8 128 127 = 0 := by decide

/-- The sixteen pairs of `CAP = 4`, row `r` by row (2.3). -/
theorem test_len : ([0, 1, 2, 3].map fun r => [0, 1, 2, 3].map (len 8 4 r)) =
    [[0, 1, 2, 3], [3, 0, 1, 2], [2, 3, 0, 1], [1, 2, 3, 0]] := by decide

theorem test_full : ([0, 1, 2, 3].map fun r => [0, 1, 2, 3].map (isFull 8 4 r)) =
    [[false, false, false, true], [true, false, false, false], [false, true, false, false],
     [false, false, true, false]] := by decide

theorem test_bin2gray : [0, 1, 2, 3, 4, 5, 6, 7].map (bin2gray 3) =
    [0b000, 0b001, 0b011, 0b010, 0b110, 0b111, 0b101, 0b100] := by decide

theorem test_gray2bin : [0b1111, 0b1000, 0b0100, 0b0110].map (gray2bin 4) = [10, 15, 7, 4] := by
  decide

/-! ## Construction, reset, flush (2.5, 2.10) -/

/-- `H: CONSTRUCT 3` makes the state the model resets to. -/
theorem test_construct_three : nextOf (exec (.construct 3) unbuilt) = some State.reset := by decide

theorem test_construct_overflow :
    faultOf (exec (.construct 129) unbuilt) = some (.capacityOverflow 129) := by decide

/-- `slots=[_, 7, 8, 9]`, full. -/
theorem test_constructFrom :
    (nextOf (exec (.constructFrom [7, 8, 9]) unbuilt)).map (fun t => (t.slots, t.pFull)) =
      some ([(1, 7), (2, 8), (3, 9)], true) := by decide

theorem test_constructFrom_too_long :
    faultOf (exec (.constructFrom [5, 6]) unbuilt) = some (.initTooLong 2 1) := by decide

/-- RESET closes a window and forgets the slots. -/
theorem test_reset : (nextOf (exec .reset inWindow)).map (fun t => (t.slots, t.flushing)) =
    some ([], false) := by decide

theorem test_flushBegin : (nextOf (exec .flushBegin oneItem)).map (fun t => (t.flushing, t.write)) =
    some (true, 1) := by decide

/-- `w=0 ... slots=[_,0,20,30]` after the window. -/
theorem test_flushEnd :
    (nextOf (exec .flushEnd { vec 3 1 0 3 1 3 [(1, 0), (2, 20), (3, 30)] with flushing := true })).map
      (fun t => (t.write, t.wrShadow, t.slots)) = some (0, 0, [(1, 0), (2, 20), (3, 30)]) := by decide

theorem test_flushEnd_no_window : (nextOf (exec .flushEnd State.reset)).map (fun t => (t.fault, t.out.hErr)) =
    some ([{ kind := .illegalCommand, agent := .host, opcode := 2 }], true) := by decide

theorem test_hnop : nextOf (exec .hnop State.reset) = some State.reset := by decide

/-! ## ENQ and DEQ (2.6, 2.7) -/

/-- The reload frees the slot: `rs=1`, `slot[0]=40`, `w=0`. -/
theorem test_enq_reloads :
    (nextOf (exec (.enq 40) (vec 3 1 0 0 1 0 []))).map
      (fun t => (t.write, t.rdShadow, Memory.read t.slots 0, t.out.pOk)) =
      some (0, 1, some 40, true) := by decide

/-- A stale full: the consumer has dequeued, the view has not moved. -/
theorem test_enq_stale_full :
    (nextOf (exec (.enq 40) (vec 3 1 0 0 0 0 []))).map (fun t => (t.write, t.slots, t.out.pOk)) =
      some (3, [], false) := by decide

/-- The consumer sees the item after the view: reload `ws=1`, `slot[1]=0`, `r=1`. -/
theorem test_deq_reloads :
    (nextOf (exec .deq (vec 1 0 0 0 0 1 [(1, 10)]))).map
      (fun t => (t.read, t.wrShadow, t.slots, t.out.cData)) = some (1, 1, [(1, 0)], 10) := by decide

/-- The wrap: `next=0`. -/
theorem test_deq_wraps :
    (nextOf (exec .deq (vec 0 3 0 0 0 0 [(0, 50), (1, 0)]))).map (fun t => (t.read, t.out.cData)) =
      some (0, 50) := by decide

/-! ## Status: state `X` of 2.8, and the words of DBG -/

/-- State `X`: `w=3 r=1 rsync=0 wsync=2`. -/
def stateX : State := vec 3 1 0 0 0 2 []

theorem test_len_p : (nextOf (exec .lenP stateX)).map (·.out.pVal) = some 3 := by decide

theorem test_len_c : (nextOf (exec .lenC stateX)).map (·.out.cVal) = some 1 := by decide

theorem test_isFull_p : (nextOf (exec .isFullP stateX)).map (·.out.pOk) = some true := by decide

theorem test_isFull_c : (nextOf (exec .isFullC stateX)).map (·.out.cOk) = some false := by decide

theorem test_isEmpty_p : (nextOf (exec .isEmptyP stateX)).map (·.out.pOk) = some false := by decide

/-- Empty at a nonzero index: `w=r=rsync=wsync=2`. -/
theorem test_isEmpty_c : (nextOf (exec .isEmptyC (vec 2 2 0 0 2 2 []))).map (·.out.cOk) = some true := by
  decide

theorem test_cap_p : (nextOf (exec .capP stateX)).map (·.out.pVal) = some 3 := by decide

theorem test_cap_c : (nextOf (exec .capC stateX)).map (·.out.cVal) = some 3 := by decide

theorem test_dbg_p : (nextOf (exec .dbgP stateX)).map (·.out.pDbg) = some 0x204030003 := by decide

theorem test_dbg_c : (nextOf (exec .dbgC stateX)).map (·.out.cDbg) = some 0x004010102 := by decide

/-- "Empty state at a nonzero index": `DBG = 0x104000202`. -/
theorem test_dbg_empty :
    (nextOf (exec .dbgC (vec 2 2 0 0 2 2 []))).map (·.out.cDbg) = some 0x104000202 := by decide

/-- NOP raises nothing in a flush window (2.11). -/
theorem test_nop_in_window : (nextOf (exec .nopC inWindow)).map (·.fault) = some [] := by decide

/-! ## The crossing (2.9, 2.12) -/

/-- `w=0 wsync=3`: the producer wrapped. -/
theorem test_syncW2r_wraps : (nextOf (exec .syncW2r (vec 0 0 0 0 0 3 []))).map (·.wsync) = some 0 := by
  decide

theorem test_syncW2r_not_enabled :
    refusalOf (exec .syncW2r (vec 3 0 0 0 0 3 [])) = some .agentDisabled := by decide

/-- `r=0 rsync=3`: the consumer wrapped. -/
theorem test_syncR2w_wraps : (nextOf (exec .syncR2w (vec 0 0 0 0 3 0 []))).map (·.rsync) = some 0 := by
  decide

/-- Structural form: `rclk` edge 1 captures `w2r[0]=10` with `w2r[1]` still `00`, so `wsync=0`. -/
theorem test_edge_one :
    (nextOf (rclkEdge 0b11 { vec 3 0 0 0 0 0 [] with wgray := 0b10, wgrayPrev := 0b11 })).map
      (fun t => (t.w2r, t.wsync)) = some ([0b10, 0b00], 0) := by decide

/-- Edge 2 gives `w2r[1]=10`, `wsync=gray2bin(10)=3`. -/
theorem test_edge_two :
    (nextOf (rclkEdge 0 { vec 3 0 0 0 0 0 [] with
      wgray := 0b10, wgrayPrev := 0b10, w2r := [0b10, 0b00] })).map (·.wsync) = some 3 := by decide

/-- While `wgray` goes `01 -> 11` the capture is `01` or `11`, never `10` or `00`. -/
theorem test_sample : [0, 1, 2, 3].map (sampleGray 0b01 0b11) = [0b01, 0b01, 0b11, 0b11] := by decide

/-- Full at one edge: false and `(10, true)`, `w=3 r=1 slots=[_,0,20,30]`. -/
theorem test_sameEdge_full :
    (nextOf (sameEdge true 40 (vecSingle 3 0 [(1, 10), (2, 20), (3, 30)]))).map
      (fun t => (t.write, t.read, t.slots, t.out.pOk, t.out.cData)) =
      some (3, 1, [(1, 0), (2, 20), (3, 30)], false, 10) := by decide

/-- Empty at one edge: true and `(0, false)`, `w=3 r=2`, `slot[3]=5`. -/
theorem test_sameEdge_empty :
    (nextOf (sameEdge false 5 (vecSingle 2 2 []))).map
      (fun t => (t.write, t.read, t.slots, t.out.pOk, t.out.cOk)) =
      some (3, 2, [(3, 5)], true, false) := by decide

/-- Two clocks, one item in flight (2.6, 2.7): the ENQ stores at `slot[2]`, the DEQ of the same instant
takes `slot[1]`, in the other order too (R207, 93 U21). -/
theorem test_sameEdge_two_clocks : ∀ p : Bool,
    (nextOf (sameEdge p 20 (vec 1 0 0 0 0 1 [(1, 10)]))).map
      (fun t => (t.write, t.read, t.slots)) = some (2, 1, [(1, 0), (2, 20)]) ∧
    (nextOf (sameEdge p 20 (vec 1 0 0 0 0 1 [(1, 10)]))).map
      (fun t => (t.out.pOk, t.out.cOk, t.out.cData)) = some (true, true, 10) := by decide

/-- In a flush window both raise FlushRace, each with its own entry (R209). -/
theorem test_sameEdge_in_window :
    (nextOf (sameEdge false 20 inWindow)).map (fun t => (t.fault, t.out.pErr, t.out.cErr)) =
      some ([{ kind := .flushRace, agent := .consumer, opcode := 2 },
             { kind := .flushRace, agent := .producer, opcode := 1 }], true, true) := by decide

/-! ## Errors (2.11) -/

/-- `p_op = 0x9` in a flush window: decode is tested before `flushing`. -/
theorem test_reservedP_in_window : (nextOf (exec (.reservedP 1) inWindow)).map (·.fault) =
    some [{ kind := .illegalCommand, agent := .producer, opcode := 0x9 }] := by decide

theorem test_reservedC : (nextOf (exec (.reservedC 7) State.reset)).map (·.fault) =
    some [{ kind := .illegalCommand, agent := .consumer, opcode := 0xF }] := by decide

theorem test_illegalPDeq : (nextOf (exec .illegalPDeq State.reset)).map (·.out) =
    some { Outputs.zero with pErr := true } := by decide

theorem test_illegalCEnq : (nextOf (exec .illegalCEnq State.reset)).map (·.fault) =
    some [{ kind := .illegalCommand, agent := .consumer, opcode := 0x1 }] := by decide

theorem test_flushRace_len : (nextOf (exec .lenP inWindow)).map (·.fault) =
    some [{ kind := .flushRace, agent := .producer, opcode := 0x3 }] := by decide

/-! ## Witnesses: the hypotheses of the statements can be met -/

theorem witness_sound_states :
    State.reset.Inv ∧ oneItem.Inv ∧ full.Inv ∧ drained.Inv ∧ inWindow.Inv ∧ single.Inv ∧
      singleOne.Inv ∧ singleFull.Inv ∧ unbuilt.Inv :=
  ⟨by decide, by decide, by decide, by decide, by decide, by decide, by decide, by decide, by decide⟩

theorem witness_DecodeEncodeRoundTrip :
    (Instr.enq 255).wellFormed 8 = true ∧ (Instr.constructFrom [0, 255]).wellFormed 8 = true := by decide

theorem witness_PortOpcodeMap : (255 : Nat) < 2 ^ 8 := by decide

theorem witness_HostOpcodeMap : (3 : Nat) < 4 := by decide

/-- A fitting and a wide word. -/
theorem witness_DecodingIsTotalOnFittingWords :
    (Request.pcmd 0xFFF).fits 8 = true ∧ (Request.pcmd 0x1000).fits 8 = false := by decide

/-- One list of inputs for each clause. -/
theorem witness_StepRunsThePresentedEvent :
    State.reset.inputs = [] ∧ decoded 8 (.ccmd 2) = some .deq ∧ decoded 8 (.ccmd 16) = none ∧
      { State.reset with inputs := [.command (.ccmd 2)] }.inputs = .command (.ccmd 2) :: [] ∧
      { State.reset with inputs := [.wclkEdge 1] }.inputs = .wclkEdge 1 :: [] ∧
      { State.reset with inputs := [.rclkEdge 1] }.inputs = .rclkEdge 1 :: [] ∧
      { State.reset with inputs := [.sameEdge 1 true] }.inputs = .sameEdge 1 true :: [] := by decide

/-- Just inside and just outside the bound. -/
theorem witness_NextPow2IsTheLeastPowerOfTwo :
    2 ≤ 8 ∧ (2 : Nat) ^ (8 - 1) < 129 ∧ 128 ≤ (2 : Nat) ^ (8 - 1) ∧ 1 ≤ 7 ∧ 128 ≤ (2 : Nat) ^ 7 := by decide

theorem witness_NextPow2FromTheTopBit :
    2 ≤ 8 ∧ 128 ≤ (2 : Nat) ^ (8 - 1) ∧ 3 ≤ 128 ∧ 3 ≤ 3 ∧ 2 ≤ (2 : Nat) ^ (8 - 1) ∧ 2 ≤ 2 := by decide

/-- `c` at CAP - 2 (the clause below the wrap) and beyond CAP. -/
theorem witness_IncIsSuccessorModuloCap :
    1 ≤ 2 ∧ 2 + 1 ≤ 8 ∧ 255 < (2 : Nat) ^ 8 ∧ 2 < (2 : Nat) ^ 2 - 1 := by decide

theorem witness_LenIsDifferenceModuloCap : 1 ≤ 2 ∧ 2 + 1 ≤ 8 ∧ 3 < (2 : Nat) ^ 8 ∧ 1 < (2 : Nat) ^ 8 := by
  decide

theorem witness_PredicatesAgreeWithLen : 1 ≤ 1 ∧ 1 + 1 ≤ 2 ∧ 1 < (2 : Nat) ^ 1 ∧ 0 < (2 : Nat) ^ 1 := by
  decide

/-- The middle bits, and the top bit. -/
theorem witness_GrayCodeIsInverted : 7 < (2 : Nat) ^ 3 ∧ 1 + 1 < 3 ∧ 2 + 1 = 3 := by decide

theorem witness_AdjacentGrayCodesDifferInOneBit : 1 ≤ 2 ∧ 2 + 1 ≤ 8 ∧ 3 < (2 : Nat) ^ 2 := by decide

theorem witness_ConstructMakesTheEmptyInstance :
    unbuilt.cfg.Ok ∧ unbuilt.built = false ∧ 128 ≤ 2 ^ (unbuilt.cfg.w - 1) ∧
      2 ^ (unbuilt.cfg.w - 1) < 129 := by decide

theorem witness_ConstructFromMakesTheFilledInstance :
    unbuilt.cfg.Ok ∧ unbuilt.built = false ∧ unbuilt.cfg.isDual = true ∧
      [7, 8, 9].all (datumFits unbuilt.cfg.dw) = true ∧ rounded unbuilt.cfg.w [7, 8, 9].length = some 4 ∧
      [7, 8, 9].length ≤ usableCap 4 := by decide

/-- A failing length, and 3, which is no power of two from 2 on. -/
theorem witness_ConstructFromFailsAtPowersOfTwo :
    unbuilt.cfg.Ok ∧ unbuilt.built = false ∧ [5, 6].length ≤ 2 ^ (unbuilt.cfg.w - 1) ∧
      (1 ≤ 1 ∧ [5, 6].length = 2 ^ 1) ∧ ∀ k, 1 ≤ k → [7, 8, 9].length ≠ 2 ^ k := by
  refine ⟨by decide, rfl, by decide, by decide, fun k hk h => ?_⟩
  have h2 : (2 : Nat) ^ k % 2 = 0 := by
    obtain ⟨j, rfl⟩ : ∃ j, k = j + 1 := ⟨k - 1, by omega⟩
    simp [Nat.pow_succ]
  rw [← h] at h2
  simp at h2

theorem witness_OverflowingConstructionMakesNothing :
    unbuilt.built = false ∧ 2 ^ (unbuilt.cfg.w - 1) < 129 ∧
      2 ^ (unbuilt.cfg.w - 1) < (List.replicate 129 0).length := by
  simp [unbuilt, State.reset, Params.default]

/-- An instance that exists, and one that does not. -/
theorem witness_ConstructionComesOnceAndFirst :
    State.reset.built = true ∧ unbuilt.built = false ∧ (∀ n, Instr.deq ≠ .construct n) ∧
      ∀ l, Instr.deq ≠ .constructFrom l :=
  ⟨rfl, rfl, fun _ h => Instr.noConfusion h, fun _ h => Instr.noConfusion h⟩

theorem witness_ConstructFromEqualsEnqueueing :
    unbuilt.cfg.Ok ∧ unbuilt.built = false ∧
      (nextOf (exec (.constructFrom [7, 8, 9]) unbuilt)).isSome = true ∧
      { single with built := false }.cfg.Ok ∧
      (nextOf (exec (.constructFrom [7]) { single with built := false })).isSome = true := by decide

/-- For ResetReturnsToTheConstructedState, FlushBeginOpensTheWindow, FlushEndEmptiesTheBuffer (both
clauses), FlushPairLeavesAnEmptyBuffer, NopsChangeNothing and IllegalEncodingsRaise. -/
theorem witness_built_in_and_outside_a_window :
    full.built = true ∧ full.cfg.isDual = true ∧ full.flushing = false ∧ inWindow.built = true ∧
      inWindow.flushing = true ∧ inWindow.CapOk := by decide

/-- For EnqFollowsItsRule: a window, the full path, the accepted path, at two clocks and at one. -/
theorem witness_EnqFollowsItsRule :
    inWindow.CapOk ∧ inWindow.write < inWindow.cap ∧ inWindow.flushing = true ∧
      (full.CapOk ∧ full.write < full.cap ∧ full.flushing = false ∧ full.built = true ∧
        (full.write + 1) % full.cap = full.rdShadow ∧ full.rdShadow = full.rsync) ∧
      (oneItem.CapOk ∧ oneItem.write < oneItem.cap ∧ oneItem.Ready ∧
        (oneItem.write + 1) % oneItem.cap ≠ oneItem.rdShadow) ∧
      (singleFull.CapOk ∧ singleFull.Ready ∧
        (singleFull.write + 1) % singleFull.cap = singleFull.read) ∧
      (singleOne.CapOk ∧ singleOne.Ready ∧
        (singleOne.write + 1) % singleOne.cap ≠ singleOne.read) := by decide

/-- Full and not full. -/
theorem witness_EnqIsRejectedExactlyWhenFull :
    full.Inv ∧ full.Ready ∧ full.pFull = true ∧ oneItem.Inv ∧ oneItem.Ready ∧ oneItem.pFull = false :=
  ⟨by decide, by decide, by decide, by decide, by decide, by decide⟩

theorem witness_EnqFrame :
    (nextOf (exec (.enq 7) oneItem)).isSome = true ∧ (1 : Nat) ≠ oneItem.next oneItem.write := by decide

/-- For DeqFollowsItsRule: a window, empty, an unwritten slot, an item. -/
theorem witness_DeqFollowsItsRule :
    inWindow.CapOk ∧ inWindow.read < inWindow.cap ∧ inWindow.flushing = true ∧
      (drained.CapOk ∧ drained.read < drained.cap ∧ drained.Ready ∧ drained.read = drained.wrShadow ∧
        drained.wrShadow = drained.wsync) ∧
      ((vec 1 0 0 1 0 1 []).CapOk ∧ (vec 1 0 0 1 0 1 []).Ready ∧
        (vec 1 0 0 1 0 1 []).read ≠ (vec 1 0 0 1 0 1 []).wrShadow ∧
        Memory.read (vec 1 0 0 1 0 1 []).slots 1 = none) ∧
      (singleOne.CapOk ∧ singleOne.read < singleOne.cap ∧ singleOne.Ready ∧
        singleOne.read ≠ singleOne.write ∧ Memory.read singleOne.slots 1 = some 5) := by decide

/-- Empty as seen by the consumer, and not. -/
theorem witness_DeqFailsExactlyWhenEmpty :
    oneItem.Inv ∧ oneItem.Ready ∧ oneItem.cEmpty = true ∧ full.Inv ∧ full.Ready ∧
      full.cEmpty = false :=
  ⟨by decide, by decide, by decide, by decide, by decide, by decide⟩

theorem witness_DeqFrame :
    (nextOf (exec .deq full)).isSome = true ∧ (2 : Nat) ≠ full.next full.read := by decide

/-- For LenReportsTheViewDistance, IsEmptyAndIsFullReportThePredicates and CapReportsTheUsableCapacity:
every clause. -/
theorem witness_status_clauses :
    full.built = true ∧ full.flushing = false ∧ full.Inv ∧ inWindow.built = true ∧
      inWindow.flushing = true :=
  ⟨by decide, by decide, by decide, by decide, by decide⟩

/-- Both ports; `witness_status_clauses` has a flush window. -/
theorem witness_DbgWordHoldsItsFields :
    full.Ready ∧ full.CapOk ∧ full.InRange ∧ Agent.producer ∈ [Agent.producer, Agent.consumer] ∧
      Agent.consumer ∈ [Agent.producer, Agent.consumer] := by decide

theorem witness_StatusCommandsWriteNoState :
    isStatus .dbgC = true ∧ (nextOf (exec .dbgC full)).isSome = true ∧ full.flushing = false ∧
      (nextOf (exec .dbgC inWindow)).isSome = true ∧ inWindow.flushing = true := by decide

/-- Stale views, a settled state, and one clock. -/
theorem witness_SnapshotBounds :
    full.Inv ∧ full.Ready ∧ State.reset.Settled ∧ singleOne.Inv ∧ singleOne.Ready ∧
      singleOne.cfg.isDual = false ∧ singleFull.Inv :=
  ⟨by decide, by decide, by decide, by decide, by decide, by decide, by decide⟩

theorem witness_CommandsInAFlushWindowRace :
    inWindow.built = true ∧ inWindow.flushing = true ∧
      flushRaceOf (.enq 5) = some (.producer, 0x1) := by decide

theorem witness_ErrorsArePrecise :
    inWindow.built = true ∧
      ((nextOf (exec .deq inWindow)).map fun t => decide (t.fault ≠ inWindow.fault)) = some true := by
  decide

/-- For FaultRecordOnlyGrows and ConstantsNeverChange. -/
theorem witness_step_of_an_instance :
    full.built = true ∧ (nextOf (step full)).isSome = true := by decide

/-- Both agents have a step. -/
theorem witness_AgentsMoveAViewOnePosition :
    drained.Ready ∧ drained.cfg.isDual = true ∧ drained.CapOk ∧ drained.InRange ∧
      drained.wsync ≠ drained.write ∧ drained.rsync ≠ drained.read := by decide

/-- Enabled and not. -/
theorem witness_AgentsStepExactlyWhenEnabled :
    drained.built = true ∧ (nextOf (exec .syncW2r drained)).isSome = true ∧
      (nextOf (exec .syncW2r inWindow)).isSome = false := by decide

/-- For AgentsSettle, EdgesBringTheViewHome, and EdgesShiftTheChain between flush windows;
`inWindow` and `single` meet its other clause. -/
theorem witness_two_clocks :
    drained.Inv ∧ drained.Ready ∧ drained.cfg.isDual = true ∧
      [1, 2, 3].length = drained.cfg.nsync + 1 ∧
      inWindow.built = true ∧ inWindow.flushing = true ∧ single.built = true ∧
      single.cfg.isDual = false :=
  ⟨by decide, by decide, by decide, by decide, by decide, by decide, by decide, by decide⟩

theorem witness_SampledCursorIsOldOrNew : 1 ≤ 2 ∧ 2 + 1 ≤ 8 ∧ 3 < (2 : Nat) ^ 2 := by decide

theorem witness_EdgesRefineAgentSteps :
    drained.Inv ∧ drained.Ready ∧ drained.cfg.isDual = true ∧
      (nextOf (rclkEdge 1 drained)).isSome = true ∧ (nextOf (wclkEdge 1 drained)).isSome = true := by
  decide

/-- Not empty and full; empty and not full. -/
theorem witness_SameEdgeIsSomeSerialOrder :
    singleFull.Inv ∧ singleFull.Ready ∧ singleFull.cfg.isDual = false ∧ singleFull.cEmpty = false ∧
      single.Inv ∧ single.Ready ∧ single.pFull = false ∧ singleOne.pFull = false ∧
      singleOne.cEmpty = false :=
  ⟨by decide, by decide, by decide, by decide, by decide, by decide, by decide, by decide, by decide⟩

/-- Two clocks, and a flush window; in both orders. -/
theorem witness_SameInstantIsTwoStepsInEitherOrder :
    drained.Inv ∧ drained.built = true ∧ drained.cfg.isDual = true ∧ drained.flushing = false ∧
      inWindow.Inv ∧ inWindow.built = true ∧ inWindow.flushing = true ∧
      (nextOf (sameEdge true 7 drained)).isSome = true ∧
      (nextOf (sameEdge false 7 inWindow)).isSome = true :=
  ⟨by decide, by decide, by decide, by decide, by decide, by decide, by decide, by decide, by decide⟩

theorem witness_StepKeepsTheInvariant :
    full.Inv ∧ (nextOf (step { full with inputs := [.command (.ccmd 2)] })).isSome = true := by decide

/-- For CursorsStayInRange and SlotArrayStaysCanonical; also from the state before construction. -/
theorem witness_CursorsStayInRange :
    full.cfg.Ok ∧ full.CapOk ∧ full.InRange ∧ Memory.wf full.slots = true ∧
      (nextOf (step full)).map State.built = some true ∧
      (nextOf (step { unbuilt with inputs := [.command (.making 1 0 [7, 8, 9])] })).map State.built =
        some true := by decide

theorem witness_CursorsMoveOnePosition :
    setsCursors (.enq 7) = false ∧ (nextOf (exec (.enq 7) oneItem)).map State.write = some 2 ∧
      setsCursors .deq = false ∧ (nextOf (exec .deq full)).map State.read = some 1 := by decide

/-- A command of each port. -/
theorem witness_PortsWriteOnlyTheirOwnDomain :
    portOf (.enq 7) = some .producer ∧ (nextOf (exec (.enq 7) oneItem)).isSome = true ∧
      portOf .deq = some .consumer ∧ (nextOf (exec .deq full)).isSome = true := by decide

/-- Every clause: an accepted ENQ, a DEQ, RESET, FLUSH_END, another command, an edge. -/
theorem witness_CommandsRefineAQueue :
    oneItem.Inv ∧ oneItem.built = true ∧ (nextOf (exec (.enq 7) oneItem)).isSome = true ∧
      (nextOf (exec .deq full)).isSome = true ∧ (nextOf (exec .reset full)).isSome = true ∧
      (nextOf (exec .flushEnd inWindow)).isSome = true ∧
      setsCursors .lenP = false ∧ (nextOf (exec .lenP full)).isSome = true ∧
      (nextOf (rclkEdge 1 full)).isSome = true ∧ (nextOf (wclkEdge 1 full)).isSome = true :=
  ⟨by decide, by decide, by decide, by decide, by decide, by decide, by decide, by decide, by decide, by decide⟩

theorem witness_FifoOrderOverRuns :
    oneItem.Inv ∧ oneItem.built = true ∧ (∀ i ∈ [Instr.enq 7, .syncW2r, .deq], setsCursors i = false) ∧
      ((runLog [.enq 7, .syncW2r, .deq] oneItem).map fun x => (x.1, x.2.1, x.2.2.fault)) =
        some ([7], [10], oneItem.fault) :=
  ⟨by decide, by decide, by decide, by decide⟩

/-- The two policies, with different shadows. -/
theorem witness_ShadowPolicyIsUnobservable :
    drained.Inv ∧
      { drained with
        cfg := { drained.cfg with shadow := .alwaysReload }
        wrShadow := 1 }.Inv ∧
      drained.withoutShadows =
        { drained with
          cfg := { drained.cfg with shadow := .alwaysReload }
          wrShadow := 1 }.withoutShadows ∧
      (nextOf (exec .deq drained)).isSome = true :=
  ⟨by decide, by decide, by decide, by decide⟩

/-- A cleared slot, and the same slot not cleared. -/
theorem witness_ClearingIsUnobservable :
    drained.Inv ∧
      { drained with
        cfg := { drained.cfg with clearOnRead := false }
        slots := [(1, 10), (2, 20)] }.Inv ∧
      drained.withoutSlots =
        { drained with
          cfg := { drained.cfg with clearOnRead := false }
          slots := [(1, 10), (2, 20)] }.withoutSlots ∧
      drained.queue =
        { drained with
          cfg := { drained.cfg with clearOnRead := false }
          slots := [(1, 10), (2, 20)] }.queue ∧
      drained.slots ≠ [(1, 10), (2, 20)] ∧ (nextOf (exec .deq drained)).isSome = true :=
  ⟨by decide, by decide, by decide, by decide, by decide, by decide⟩

end Sys2Proof.Tests
end

section
/-!
PROOFS. How a step takes the next event (00_scope R15, 10_state R25), and what no step changes once
the instance exists: its constants (R7, R21, R129).
-/

namespace Sys2Proof.Proofs

open Sys2Proof Sys2Proof.Machine

/-! ## One equation of `step` per form of event -/

theorem step_of_no_event {s : State} (hin : s.inputs = []) : step s = exec .nopP s := by
  simp only [step, nextCommand, hin]

theorem step_of_command {s : State} {rest : List Event} {r : Request} {i : Instr}
    (hin : s.inputs = .command r :: rest) (hd : decode s.cfg.dw r = .ok i) :
    step s = exec i { s with inputs := rest } := by
  simp only [step, nextCommand, hin, runEvent, hd]

theorem step_of_undecodable {s : State} {rest : List Event} {r : Request} {e : DecodeError}
    (hin : s.inputs = .command r :: rest) (hd : decode s.cfg.dw r = .error e) :
    step s = .refused (.noCommand e) := by
  simp only [step, nextCommand, hin, runEvent, hd]

theorem step_of_wclkEdge {s : State} {rest : List Event} {c : Nat}
    (hin : s.inputs = .wclkEdge c :: rest) : step s = wclkEdge c { s with inputs := rest } := by
  simp only [step, nextCommand, hin, runEvent]

theorem step_of_rclkEdge {s : State} {rest : List Event} {c : Nat}
    (hin : s.inputs = .rclkEdge c :: rest) : step s = rclkEdge c { s with inputs := rest } := by
  simp only [step, nextCommand, hin, runEvent]

theorem step_of_sameEdge {s : State} {rest : List Event} {x : Nat} {p : Bool}
    (hin : s.inputs = .sameEdge x p :: rest) : step s = sameEdge p x { s with inputs := rest } := by
  simp only [step, nextCommand, hin, runEvent]

/-- Settles O6, from the equation of `step` for each form of event. -/
theorem stepRunsThePresentedEvent : Obligations.StepRunsThePresentedEvent :=
  ⟨fun _ => step_of_no_event, fun _ _ =>
    ⟨fun _ _ => step_of_command, fun _ _ => step_of_undecodable, fun _ => step_of_wclkEdge,
      fun _ => step_of_rclkEdge, fun _ _ => step_of_sameEdge⟩⟩

/-! ## Two states of one instance -/

/-- `t` is a state of the same instance as `s`: the constants of R7 and R21 agree, and so does whether
the instance exists. -/
structure SameInstance (s t : State) : Prop where
  built : t.built = s.built
  cap : t.cap = s.cap
  init : t.init = s.init
  cfg : t.cfg = s.cfg

theorem SameInstance.refl (s : State) : SameInstance s s := ⟨rfl, rfl, rfl, rfl⟩

theorem SameInstance.trans {s t u : State} (hst : SameInstance s t) (htu : SameInstance t u) :
    SameInstance s u :=
  ⟨htu.built.trans hst.built, htu.cap.trans hst.cap, htu.init.trans hst.init, htu.cfg.trans hst.cfg⟩

theorem SameInstance.raise (k : ErrorKind) (a : Agent) (op : Nat) (s : State) :
    SameInstance s (Machine.raise k a op s) :=
  ⟨raise_built .., raise_cap .., raise_init .., raise_cfg ..⟩

theorem SameInstance.reloadReadShadow (s : State) (c : Nat) :
    SameInstance s (Machine.reloadReadShadow s c) := by
  obtain ⟨_, h⟩ | ⟨_, h⟩ := reloadReadShadow_cases s c
  · rw [h]; exact ⟨rfl, rfl, rfl, rfl⟩
  · rw [h]; exact .refl s

theorem SameInstance.reloadWriteShadow (s : State) :
    SameInstance s (Machine.reloadWriteShadow s) := by
  obtain ⟨_, h⟩ | ⟨_, h⟩ := reloadWriteShadow_cases s
  · rw [h]; exact ⟨rfl, rfl, rfl, rfl⟩
  · rw [h]; exact .refl s

theorem SameInstance.publishRead (s : State) (c : Nat) : SameInstance s (Machine.publishRead s c) :=
  ⟨publishRead_built .., publishRead_cap .., publishRead_init .., publishRead_cfg ..⟩

theorem SameInstance.of_enqCommit {s t : State} {c item : Nat} (h : enqCommit s c item = .ok t) :
    SameInstance s t := by
  obtain ⟨_, rfl⟩ := enqCommit_eq_ok.1 h
  exact ⟨publishWrite_built .., publishWrite_cap .., publishWrite_init .., publishWrite_cfg ..⟩

theorem SameInstance.of_clearSlot {s t : State} {i : Nat} (h : clearSlot s i = .ok t) :
    SameInstance s t := by
  obtain ⟨_, rfl⟩ | ⟨_, _, rfl⟩ := clearSlot_eq_ok h
  · exact .refl _
  · exact ⟨rfl, rfl, rfl, rfl⟩

theorem SameInstance.of_deqCommit {s t : State} {item : Nat} (h : deqCommit s = .ok (t, item)) :
    SameInstance s t := by
  obtain ⟨_, _, u, hu, rfl⟩ := deqCommit_eq_ok h
  exact (SameInstance.of_clearSlot hu).trans (.publishRead u _)

theorem SameInstance.deqAtEdge (s : State) : SameInstance s (Machine.deqAtEdge s).1 := by
  unfold Machine.deqAtEdge
  split
  · exact .refl s
  · split
    · exact .raise ..
    · next hc => exact .of_deqCommit hc

theorem SameInstance.enqAtEdge (before : State) (item : Nat) (s : State) :
    SameInstance s (Machine.enqAtEdge before item s).1 := by
  simp only [Machine.enqAtEdge]
  split
  · exact .refl s
  · split
    · exact .raise ..
    · next hc => exact .of_enqCommit hc

/-! ## Outcomes that stay on the instance -/

/-- If the outcome `o` is a next state, it is a state of the same instance as `s`. -/
def KeepsInstance (s : State) (o : Host.Outcome State Fault Refusal) : Prop :=
  ∀ t, o = .next t → SameInstance s t

theorem KeepsInstance.next {s t : State} (h : SameInstance s t) : KeepsInstance s (.next t) := by
  rintro _ ⟨⟩
  exact h

theorem KeepsInstance.refused (s : State) (r : Refusal) : KeepsInstance s (.refused r) := nofun

theorem KeepsInstance.answer {s t : State} (h : SameInstance s t) (o : Outputs) :
    KeepsInstance s (answer o t) :=
  .next (h.trans ⟨rfl, rfl, rfl, rfl⟩)

theorem KeepsInstance.onInstance {s : State} {k : Host.Outcome State Fault Refusal}
    (hk : KeepsInstance s k) : KeepsInstance s (onInstance s k) :=
  fun t h => hk t (onInstance_next h).2

theorem KeepsInstance.portCommand {s : State} {k : Host.Outcome State Fault Refusal} (a : Agent)
    (op : Nat) (hk : KeepsInstance s k) : KeepsInstance s (portCommand a op s k) := by
  intro t h
  obtain ⟨_, ⟨_, rfl⟩ | ⟨_, hnext⟩⟩ := portCommand_next h
  · exact .raise ..
  · exact hk t hnext

theorem KeepsInstance.illegalCommand (a : Agent) (op : Nat) (s : State) :
    KeepsInstance s (illegalCommand a op s) :=
  .onInstance (.next (.raise ..))

/-- A status command: after the port's checks it gives results only (R161). -/
theorem KeepsInstance.portAnswer (a : Agent) (op : Nat) (o : Outputs) (s : State) :
    KeepsInstance s (Machine.portCommand a op s (Machine.answer o s)) :=
  .portCommand a op (.answer (.refl s) o)

/-- NOP and HNOP: results only, and no check of `flushing` (R128, R167). -/
theorem KeepsInstance.instanceAnswer (o : Outputs) (s : State) :
    KeepsInstance s (Machine.onInstance s (Machine.answer o s)) :=
  .onInstance (.answer (.refl s) o)

/-! ## Each operation -/

theorem execEnq_keepsInstance (item : Nat) (s : State) : KeepsInstance s (execEnq item s) := by
  refine .portCommand .producer 0x1 ?_
  have hreload := SameInstance.reloadReadShadow s (s.next s.write)
  obtain ⟨_, h⟩ | ⟨e, _, h⟩ | ⟨_, u, hu, h⟩ := enqBody_cases item s
  · rw [h]; exact .answer hreload _
  · rw [h]; exact .next (.raise ..)
  · rw [h]; exact .answer (hreload.trans (.of_enqCommit hu)) _

theorem execDeq_keepsInstance (s : State) : KeepsInstance s (execDeq s) := by
  refine .portCommand .consumer 0x2 ?_
  have hreload := SameInstance.reloadWriteShadow s
  obtain ⟨_, h⟩ | ⟨e, _, h⟩ | ⟨_, u, item, hu, h⟩ := deqBody_cases s
  · rw [h]; exact .answer hreload _
  · rw [h]; exact .next (.raise ..)
  · rw [h]; exact .answer (hreload.trans (.of_deqCommit hu)) _

theorem execReset_keepsInstance (s : State) : KeepsInstance s (execReset s) := by
  intro t h
  obtain ⟨hb, hnext⟩ := onInstance_next h
  cases hnext
  exact ⟨(applyReset_built ..).trans hb.symm, applyReset_cap .., applyReset_init .., applyReset_cfg ..⟩

theorem execFlushBegin_keepsInstance (s : State) : KeepsInstance s (execFlushBegin s) := by
  refine .onInstance (.answer ?_ Outputs.zero)
  exact ⟨rfl, rfl, rfl, rfl⟩

theorem execFlushEnd_keepsInstance (s : State) : KeepsInstance s (execFlushEnd s) := by
  refine .onInstance ?_
  split
  · exact .next ⟨applyFlush_built .., applyFlush_cap .., applyFlush_init .., applyFlush_cfg ..⟩
  · exact .next (.raise ..)

theorem execSyncW2r_keepsInstance (s : State) : KeepsInstance s (execSyncW2r s) := by
  refine .onInstance ?_
  split
  · refine .answer ?_ Outputs.zero
    exact ⟨rfl, rfl, rfl, rfl⟩
  · exact .refused s _

theorem execSyncR2w_keepsInstance (s : State) : KeepsInstance s (execSyncR2w s) := by
  refine .onInstance ?_
  split
  · refine .answer ?_ Outputs.zero
    exact ⟨rfl, rfl, rfl, rfl⟩
  · exact .refused s _

theorem rclkEdge_keepsInstance (c : Nat) (s : State) : KeepsInstance s (rclkEdge c s) := by
  refine .onInstance ?_
  split
  · refine .answer ?_ Outputs.zero
    exact ⟨rfl, rfl, rfl, rfl⟩
  · exact .answer (.refl s) _

theorem wclkEdge_keepsInstance (c : Nat) (s : State) : KeepsInstance s (wclkEdge c s) := by
  refine .onInstance ?_
  split
  · refine .answer ?_ Outputs.zero
    exact ⟨rfl, rfl, rfl, rfl⟩
  · exact .answer (.refl s) _

theorem oneClockEdge_keepsInstance (item : Nat) (s : State) :
    KeepsInstance s (oneClockEdge item s) :=
  .answer ((SameInstance.deqAtEdge s).trans (.enqAtEdge s item _)) _

theorem sameEdge_keepsInstance (p : Bool) (item : Nat) (s : State) :
    KeepsInstance s (sameEdge p item s) := by
  intro u h
  obtain ⟨_, ⟨_, ⟨_, t, v, ht, hv, rfl⟩ | ⟨_, t, v, ht, hv, rfl⟩⟩ | ⟨_, _, hone⟩⟩ := sameEdge_next h
  · have htv := (execEnq_keepsInstance item s t ht).trans (execDeq_keepsInstance t v hv)
    exact htv.trans ⟨rfl, rfl, rfl, rfl⟩
  · have htv := (execDeq_keepsInstance s t ht).trans (execEnq_keepsInstance item t v hv)
    exact htv.trans ⟨rfl, rfl, rfl, rfl⟩
  · exact oneClockEdge_keepsInstance item s u hone

/-- Construction is refused on an instance that exists (R120, R213). -/
theorem onNoInstance_keepsInstance {s : State} (hb : s.built = true)
    (k : Host.Outcome State Fault Refusal) : KeepsInstance s (onNoInstance s k) := by
  rw [onNoInstance, if_pos hb]
  exact .refused s _

/-- No command changes a constant of an existing instance or ends it. -/
theorem exec_keepsInstance {s : State} (hb : s.built = true) (i : Instr) :
    KeepsInstance s (exec i s) := by
  cases i with
  | nopP | nopC | hnop => exact .instanceAnswer _ s
  | lenP | isEmptyP | isFullP | capP | dbgP => exact .portAnswer .producer _ _ s
  | lenC | isEmptyC | isFullC | capC | dbgC => exact .portAnswer .consumer _ _ s
  | enq item => exact execEnq_keepsInstance item s
  | deq => exact execDeq_keepsInstance s
  | flushBegin => exact execFlushBegin_keepsInstance s
  | flushEnd => exact execFlushEnd_keepsInstance s
  | reset => exact execReset_keepsInstance s
  | construct | constructFrom => exact onNoInstance_keepsInstance hb _
  | syncW2r => exact execSyncW2r_keepsInstance s
  | syncR2w => exact execSyncR2w_keepsInstance s
  | illegalPDeq | reservedP | illegalCEnq | reservedC => exact .illegalCommand _ _ s

/-- No step changes a constant of an existing instance or ends it. -/
theorem step_keepsInstance {s : State} (hb : s.built = true) : KeepsInstance s (step s) := by
  intro t h
  obtain ⟨_, hstep⟩ | ⟨e, rest, _, hevent⟩ := step_cases s
  · exact exec_keepsInstance hb .nopP t (hstep ▸ h)
  · have htake : SameInstance s { s with inputs := rest } := ⟨rfl, rfl, rfl, rfl⟩
    obtain ⟨_, i, _, _, hstep⟩ | ⟨_, _, _, _, hstep⟩ | ⟨c, _, hstep⟩ | ⟨c, _, hstep⟩ |
      ⟨x, p, _, hstep⟩ := hevent
    · exact htake.trans (exec_keepsInstance (s := { s with inputs := rest }) hb i t (hstep ▸ h))
    · exact KeepsInstance.refused s _ t (hstep ▸ h)
    · exact htake.trans (wclkEdge_keepsInstance c _ t (hstep ▸ h))
    · exact htake.trans (rclkEdge_keepsInstance c _ t (hstep ▸ h))
    · exact htake.trans (sameEdge_keepsInstance p x _ t (hstep ▸ h))

/-- Settles O53: every event keeps the instance, and an instance that exists goes on existing. -/
theorem constantsNeverChange : Obligations.ConstantsNeverChange := by
  intro s t hb h
  obtain ⟨hbuilt, hcap, hinit, hcfg⟩ := step_keepsInstance hb t h
  exact ⟨hbuilt.trans hb, hcap, hinit, hcfg⟩

end Sys2Proof.Proofs
end

section
/-!
PROOFS. The ring of cursor values `[0, CAP)` (40_index_arith R104, R107) and the Gray code on it
(R110 to R113): `inc` and `positions` in closed form, the two codes as inverses, and what a register
that moves by one position can be sampled as (45_cdc_sync R186).
-/

namespace Sys2Proof.Proofs

open Sys2Proof Sys2Proof.Machine

/-! ## `inc` -/

theorem addrWidth_two_pow (k : Nat) : addrWidth (2 ^ k) = k := Nat.log2_two_pow

theorem inc_eq_mod {w aw : Nat} (haw : aw ≤ w) (c : Nat) : inc w (2 ^ aw) c = (c + 1) % 2 ^ aw := by
  rw [inc, mask, addW, Nat.and_two_pow_sub_one_eq_mod, Nat.mod_mod_of_dvd _ (Nat.pow_dvd_pow 2 haw)]

section Ring

variable {s : State}

theorem two_le_cap (hc : s.CapOk) : 2 ≤ s.cap := by
  obtain ⟨hcap, haw, _, _⟩ := hc
  rw [hcap]
  exact Nat.le_self_pow (by omega) 2

theorem init_fits (hc : s.CapOk) : s.init.length ≤ usableCap s.cap := by
  obtain ⟨_, _, _, hfits⟩ := hc
  exact hfits

theorem nsync_pos (hcfg : s.cfg.Ok) : 0 < s.cfg.nsync := by
  obtain ⟨_, _, hnsync⟩ := hcfg
  omega

theorem next_eq_mod (hc : s.CapOk) (c : Nat) : s.next c = (c + 1) % s.cap := by
  obtain ⟨hcap, _, haw, _⟩ := hc
  have h := inc_eq_mod (show addrWidth s.cap ≤ s.cfg.w by omega) c
  rwa [← hcap] at h

theorem next_lt (hc : s.CapOk) (c : Nat) : s.next c < s.cap := by
  rw [next_eq_mod hc]
  exact Nat.mod_lt _ (Nat.two_pos.trans_le (two_le_cap hc))

theorem next_eq_ite (hc : s.CapOk) {c : Nat} (h : c < s.cap) :
    s.next c = if c + 1 = s.cap then 0 else c + 1 := by
  rw [next_eq_mod hc]
  split
  · next hwrap => rw [hwrap, Nat.mod_self]
  · exact Nat.mod_eq_of_lt (by omega)

/-- A register that holds its counter modulo CAP still does when both move by one. -/
theorem next_mod (hc : s.CapOk) (n : Nat) : s.next (n % s.cap) = (n + 1) % s.cap := by
  rw [next_eq_mod hc, Nat.mod_add_mod]

/-! ## Distances on the ring -/

theorem positions_eq_ite {a b : Nat} (ha : a < s.cap) (hb : b < s.cap) :
    s.positions a b = if a ≤ b then b - a else b + s.cap - a := by
  unfold State.positions
  split
  · rw [show b + (s.cap - a) = b - a + s.cap by omega, Nat.add_mod_right,
      Nat.mod_eq_of_lt (by omega)]
  · rw [show b + (s.cap - a) = b + s.cap - a by omega, Nat.mod_eq_of_lt (by omega)]

theorem positions_self {a : Nat} (ha : a < s.cap) : s.positions a a = 0 := by
  simp [positions_eq_ite ha ha]

theorem positions_next_right (hc : s.CapOk) {a b : Nat} (ha : a < s.cap) (hb : b < s.cap)
    (hroom : s.positions a b + 1 < s.cap) : s.positions a (s.next b) = s.positions a b + 1 := by
  rw [positions_eq_ite ha hb] at *
  rw [positions_eq_ite ha (next_lt hc b), next_eq_ite hc hb]
  split_ifs at * <;> omega

theorem positions_next_left (hc : s.CapOk) {a b : Nat} (ha : a < s.cap) (hb : b < s.cap)
    (hne : a ≠ b) : s.positions (s.next a) b = s.positions a b - 1 := by
  rw [positions_eq_ite (next_lt hc a) hb, positions_eq_ite ha hb, next_eq_ite hc ha]
  split_ifs <;> omega

/-- Distances from a point that is passed on the way. -/
theorem positions_rebase {a v b : Nat} (ha : a < s.cap) (hv : v < s.cap) (hb : b < s.cap)
    (hle : s.positions a v ≤ s.positions a b) :
    s.positions v b = s.positions a b - s.positions a v := by
  rw [positions_eq_ite ha hv, positions_eq_ite ha hb] at *
  rw [positions_eq_ite hv hb]
  split_ifs at * <;> omega

theorem positions_add_mod {a d : Nat} (ha : a < s.cap) (hd : d < s.cap) :
    s.positions a ((a + d) % s.cap) = d := by
  rw [positions_eq_ite ha (Nat.mod_lt _ (Nat.zero_lt_of_lt ha))]
  by_cases hlt : a + d < s.cap
  · rw [Nat.mod_eq_of_lt hlt]
    split_ifs <;> omega
  · rw [Nat.mod_eq_sub_mod (by omega), Nat.mod_eq_of_lt (by omega)]
    split_ifs <;> omega

/-- Counters less than CAP apart are as far apart as their registers. -/
theorem positions_mod {m n : Nat} (hmn : m ≤ n) (hn : n < m + s.cap) :
    s.positions (m % s.cap) (n % s.cap) = n - m := by
  have h := positions_add_mod (Nat.mod_lt m (by omega : 0 < s.cap)) (by omega : n - m < s.cap)
  rwa [Nat.mod_add_mod, Nat.add_sub_cancel' hmn] at h

/-- A counter moved by the distance from its register to `b` has `b` as its register. -/
theorem add_positions_mod {n b : Nat} (hb : b < s.cap) :
    (n + s.positions (n % s.cap) b) % s.cap = b := by
  have hn : n % s.cap < s.cap := Nat.mod_lt _ (by omega)
  rw [← Nat.mod_add_mod, positions_eq_ite hn hb]
  split
  · rw [show n % s.cap + (b - n % s.cap) = b by omega, Nat.mod_eq_of_lt hb]
  · rw [show n % s.cap + (b + s.cap - n % s.cap) = b + s.cap by omega, Nat.add_mod_right,
      Nat.mod_eq_of_lt hb]

theorem len_eq_positions (hc : s.CapOk) {a : Nat} (b : Nat) (ha : a < s.cap) :
    len s.cfg.w s.cap a b = s.positions a b := by
  obtain ⟨hcap, _, haw, _⟩ := hc
  obtain ⟨m, hm⟩ : s.cap ∣ 2 ^ s.cfg.w := by
    rw [hcap]
    exact Nat.pow_dvd_pow 2 (by omega)
  have hpos : 0 < m := Nat.pos_of_ne_zero (by rintro rfl; simp at hm)
  have hle : s.cap ≤ 2 ^ s.cfg.w := hm ▸ Nat.le_mul_of_pos_right _ hpos
  have hand : len s.cfg.w s.cap a b = subW s.cfg.w b a % s.cap := by
    have h := Nat.and_two_pow_sub_one_eq_mod (subW s.cfg.w b a) (addrWidth s.cap)
    rwa [← hcap] at h
  calc len s.cfg.w s.cap a b
      = (b + (2 ^ s.cfg.w - a)) % 2 ^ s.cfg.w % s.cap := by
        rw [hand, subW, Nat.mod_eq_of_lt (by omega : a < 2 ^ s.cfg.w)]
    _ = (b + (s.cap * m - a)) % s.cap := by rw [Nat.mod_mod_of_dvd _ ⟨m, hm⟩, hm]
    _ = (b + (s.cap - a) + s.cap * (m - 1)) % s.cap := by
        rw [Nat.mul_sub_one]
        congr 1
        omega
    _ = s.positions a b := Nat.add_mul_mod_self_left ..

end Ring

/-! ## The Gray code -/

theorem xor_shiftRight_one_lt {aw b : Nat} (hb : b < 2 ^ aw) : b ^^^ (b >>> 1) < 2 ^ aw :=
  Nat.xor_lt_two_pow hb ((Nat.shiftRight_le b 1).trans_lt hb)

theorem shiftRight_one_lt {aw b : Nat} (hb : b < 2 ^ (aw + 1)) : b >>> 1 < 2 ^ aw := by
  rw [Nat.shiftRight_eq_div_pow]
  omega

theorem bin2gray_of_lt {aw b : Nat} (hb : b < 2 ^ aw) : bin2gray aw b = b ^^^ (b >>> 1) := by
  rw [bin2gray, Nat.mod_eq_of_lt hb]

theorem gray2bin_succ_of_lt {aw g : Nat} (hg : g < 2 ^ (aw + 1)) :
    gray2bin (aw + 1) g = g ^^^ gray2bin aw (g >>> 1) := by
  rw [gray2bin, Nat.mod_eq_of_lt hg]

theorem bin2gray_lt (aw b : Nat) : bin2gray aw b < 2 ^ aw :=
  xor_shiftRight_one_lt (Nat.mod_lt _ (Nat.two_pow_pos aw))

theorem gray2bin_lt : ∀ aw g : Nat, gray2bin aw g < 2 ^ aw
  | 0, _ => Nat.one_pos
  | aw + 1, g =>
    Nat.xor_lt_two_pow (Nat.mod_lt _ (Nat.two_pow_pos _))
      ((gray2bin_lt aw _).trans (Nat.pow_lt_pow_right (by decide) (Nat.lt_succ_self aw)))

@[simp] theorem gray2bin_zero : ∀ aw : Nat, gray2bin aw 0 = 0
  | 0 => rfl
  | aw + 1 => by simp [gray2bin, gray2bin_zero aw]

@[simp] theorem bin2gray_zero (aw : Nat) : bin2gray aw 0 = 0 := by simp [bin2gray]

theorem gray2bin_bin2gray : ∀ {aw b : Nat}, b < 2 ^ aw → gray2bin aw (bin2gray aw b) = b
  | 0, b, hb => by simp [gray2bin]; omega
  | aw + 1, b, hb => by
    have ih := gray2bin_bin2gray (shiftRight_one_lt hb)
    rw [bin2gray_of_lt (shiftRight_one_lt hb)] at ih
    rw [bin2gray_of_lt hb, gray2bin_succ_of_lt (xor_shiftRight_one_lt hb),
      Nat.shiftRight_xor_distrib, ih, Nat.xor_xor_cancel_right]

theorem bin2gray_gray2bin : ∀ {aw g : Nat}, g < 2 ^ aw → bin2gray aw (gray2bin aw g) = g
  | 0, g, hg => by simp [bin2gray, gray2bin]; omega
  | aw + 1, g, hg => by
    have ih := bin2gray_gray2bin (shiftRight_one_lt hg)
    rw [bin2gray_of_lt (gray2bin_lt ..)] at ih
    rw [bin2gray_of_lt (gray2bin_lt ..), gray2bin_succ_of_lt hg, Nat.shiftRight_xor_distrib]
    generalize gray2bin aw (g >>> 1) = y at ih
    calc (g ^^^ y) ^^^ (g >>> 1 ^^^ y >>> 1)
        = g ^^^ (g >>> 1 ^^^ (y ^^^ y >>> 1)) := by ac_rfl
      _ = g := by rw [ih, Nat.xor_self, Nat.xor_zero]

/-! ## Adjacent codes and sampling -/

/-- Adding one flips a run of low bits. -/
theorem exists_xor_succ_eq (b : Nat) : ∃ k, b ^^^ (b + 1) = 2 ^ (k + 1) - 1 := by
  induction b using Nat.strongRecOn with
  | ind b ih =>
    obtain ⟨m, rfl | rfl⟩ := b.even_or_odd'
    · exact ⟨0, by rw [← Nat.xor_one_of_even (even_two_mul m), Nat.xor_xor_cancel_left]; rfl⟩
    · obtain ⟨k, hk⟩ := ih m (by omega)
      have hdiv : ((2 * m + 1) ^^^ (2 * m + 1 + 1)) / 2 = 2 ^ (k + 1) - 1 := by
        rw [Nat.xor_div_two, ← hk]
        congr 1 <;> omega
      have hmod : ((2 * m + 1) ^^^ (2 * m + 1 + 1)) % 2 = 1 := by
        rw [Nat.xor_mod_two_eq]
        omega
      have hpos := Nat.two_pow_pos k
      exact ⟨k + 1, by omega⟩

/-- A run of low bits has the Gray code of its top bit alone. -/
theorem xor_shiftRight_one_of_low_ones (k : Nat) :
    (2 ^ (k + 1) - 1) ^^^ ((2 ^ (k + 1) - 1) >>> 1) = 2 ^ k := by
  refine Nat.eq_of_testBit_eq fun i => ?_
  rw [Nat.testBit_xor, Nat.testBit_shiftRight, Nat.testBit_two_pow_sub_one,
    Nat.testBit_two_pow_sub_one, Nat.testBit_two_pow, Bool.eq_iff_iff]
  simp
  omega

/-- The codes of adjacent cursor values differ in exactly one bit, the wrap included (R112). -/
theorem bin2gray_xor_bin2gray_succ {aw b : Nat} (haw : 1 ≤ aw) (hb : b < 2 ^ aw) :
    ∃ k, bin2gray aw b ^^^ bin2gray aw ((b + 1) % 2 ^ aw) = 2 ^ k := by
  obtain ⟨k, hk⟩ : ∃ k, b ^^^ ((b + 1) % 2 ^ aw) = 2 ^ (k + 1) - 1 := by
    by_cases hwrap : b + 1 = 2 ^ aw
    · exact ⟨aw - 1, by rw [hwrap, Nat.mod_self, Nat.xor_zero, Nat.sub_add_cancel haw]; omega⟩
    · rw [Nat.mod_eq_of_lt (by omega)]
      exact exists_xor_succ_eq b
  refine ⟨k, ?_⟩
  rw [bin2gray_of_lt hb, bin2gray_of_lt (Nat.mod_lt _ (Nat.two_pow_pos aw)),
    ← xor_shiftRight_one_of_low_ones k, ← hk, Nat.shiftRight_xor_distrib]
  ac_rfl

@[simp] theorem sampleGray_self (g capture : Nat) : sampleGray g g capture = g := by
  simp [sampleGray]

/-- A register that changed in one bit is sampled as what it was or as what it is (R186). -/
theorem sampleGray_of_one_bit {old new k : Nat} (h : old ^^^ new = 2 ^ k) (capture : Nat) :
    sampleGray old new capture = old ∨ sampleGray old new capture = new := by
  rw [sampleGray, h, Nat.and_comm, Nat.and_two_pow, ← h]
  cases capture.testBit k with
  | false => simp
  | true => simp

end Sys2Proof.Proofs
end

section
/-!
PROOFS. One direction of the crossing (10_state R30, 45_cdc_sync R185 to R187) read as cursor
values: the Gray register, its earlier value and the chain are the codes of a pipeline of cursor
values that never go forward on the way to the view. A store, a SYNC step and an edge of the receiving
clock move the pipeline.
-/

namespace Sys2Proof.Proofs

open Sys2Proof Sys2Proof.Machine

section Crossing

variable {s : State}

/-! ## The codes of cursor values -/

theorem gray2bin_gray (hc : s.CapOk) {x : Nat} (hx : x < s.cap) :
    gray2bin (addrWidth s.cap) (s.gray x) = x :=
  gray2bin_bin2gray (hc.1 ▸ hx)

theorem gray_gray2bin {g : Nat} (hg : g < 2 ^ addrWidth s.cap) :
    s.gray (gray2bin (addrWidth s.cap) g) = g :=
  bin2gray_gray2bin hg

theorem gray2bin_lt_cap (hc : s.CapOk) (g : Nat) : gray2bin (addrWidth s.cap) g < s.cap :=
  (gray2bin_lt _ g).trans_eq hc.1.symm

theorem gray_inj (hc : s.CapOk) {x y : Nat} (hx : x < s.cap) (hy : y < s.cap) :
    s.gray x = s.gray y ↔ x = y := by
  refine ⟨fun h => ?_, fun h => h ▸ rfl⟩
  rw [← gray2bin_gray hc hx, h, gray2bin_gray hc hy]

theorem map_gray2bin_map_gray (hc : s.CapOk) {vals : List Nat} (h : ∀ x ∈ vals, x < s.cap) :
    (vals.map s.gray).map (gray2bin (addrWidth s.cap)) = vals := by
  rw [List.map_map]
  exact (List.map_congr_left fun x hx => gray2bin_gray hc (h x hx)).trans (List.map_id vals)

theorem map_gray_map_gray2bin {chain : List Nat} (h : ∀ g ∈ chain, g < 2 ^ addrWidth s.cap) :
    (chain.map (gray2bin (addrWidth s.cap))).map s.gray = chain := by
  rw [List.map_map]
  exact (List.map_congr_left fun g hg => gray_gray2bin (h g hg)).trans (List.map_id chain)

theorem chainOutput_lt (hc : s.CapOk) (chain : List Nat) : s.chainOutput chain < s.cap :=
  gray2bin_lt_cap hc _

/-- A chain's output is its last stage's cursor value. -/
theorem chainOutput_eq_getLastD (s : State) (chain : List Nat) :
    s.chainOutput chain = (chain.map (gray2bin (addrWidth s.cap))).getLastD 0 := by
  rw [State.chainOutput, List.getLastD_eq_getLast?, List.getLastD_eq_getLast?, List.getLast?_map]
  cases chain.getLast? with
  | none => exact gray2bin_zero _
  | some g => rfl

/-- Sampling a Gray register that moved by at most one position gives the code of its earlier or of
its present cursor value (R186). -/
theorem sampleGray_gray (hc : s.CapOk) {prev cursor : Nat} (hp : prev < s.cap)
    (hadj : prev = cursor ∨ s.next prev = cursor) (capture : Nat) :
    ∃ q, (q = prev ∨ q = cursor) ∧ sampleGray (s.gray prev) (s.gray cursor) capture = s.gray q := by
  obtain rfl | rfl := hadj
  · exact ⟨prev, .inl rfl, sampleGray_self ..⟩
  · obtain ⟨k, hk⟩ := bin2gray_xor_bin2gray_succ hc.2.1 (hp.trans_eq hc.1)
    rw [← hc.1, ← next_eq_mod hc] at hk
    obtain h | h := sampleGray_of_one_bit hk capture
    · exact ⟨prev, .inl rfl, h⟩
    · exact ⟨s.next prev, .inr rfl, h⟩

/-! ## The pipeline of cursor values -/

/-- No value of the list is further ahead of the view than one before it. -/
def Descending (s : State) (view : Nat) (vals : List Nat) : Prop :=
  (vals.map (s.positions view)).Pairwise fun a b => b ≤ a

theorem descending_iff {view : Nat} {vals : List Nat} :
    Descending s view vals ↔ vals.Pairwise fun a b => s.positions view b ≤ s.positions view a :=
  List.pairwise_map

theorem Descending.rebase {view view' : Nat} {vals : List Nat} (h : Descending s view vals)
    (hv : view < s.cap) (hv' : view' < s.cap) (hlt : ∀ x ∈ vals, x < s.cap)
    (hle : ∀ x ∈ vals, s.positions view view' ≤ s.positions view x) : Descending s view' vals := by
  rw [descending_iff] at h ⊢
  refine h.imp_of_mem fun {a b} ha hb hab => ?_
  rw [positions_rebase hv hv' (hlt a ha) (hle a ha), positions_rebase hv hv' (hlt b hb) (hle b hb)]
  exact Nat.sub_le_sub_right hab _

/-- The last value is the least ahead. -/
theorem Descending.last_le {view last : Nat} {vals : List Nat}
    (h : Descending s view (vals ++ [last])) {x : Nat} (hx : x ∈ vals ++ [last]) :
    s.positions view last ≤ s.positions view x := by
  rw [descending_iff, List.pairwise_append] at h
  obtain hx | hx := List.mem_append.1 hx
  · exact h.2.2 x hx last (List.mem_singleton.2 rfl)
  · rw [List.mem_singleton.1 hx]

/-- The cursor values of one direction of the crossing: the cursor, what its register held before
its latest change, and the stages of the chain. -/
structure Pipeline (s : State) (cursor view prev : Nat) (vals : List Nat) : Prop where
  length : vals.length = s.cfg.nsync
  last : vals.getLastD 0 = view
  adjacent : prev = cursor ∨ s.next prev = cursor
  lt_cap : ∀ x ∈ cursor :: prev :: vals, x < s.cap
  descending : Descending s view (cursor :: prev :: vals)

/-- The invariant of one direction says that the Gray copies are the codes of a pipeline. -/
theorem crossingOk_iff (hc : s.CapOk) {cursor view reg prev : Nat} {chain : List Nat}
    (hcur : cursor < s.cap) :
    s.CrossingOk cursor view reg prev chain ↔
      ∃ p vals, reg = s.gray cursor ∧ prev = s.gray p ∧ chain = vals.map s.gray ∧
        Pipeline s cursor view p vals := by
  constructor
  · rintro ⟨rfl, hlen, hout, hadj, hlt, hdesc⟩
    simp only [List.mem_cons, forall_eq_or_imp] at hlt
    refine ⟨gray2bin (addrWidth s.cap) prev, chain.map (gray2bin (addrWidth s.cap)), rfl,
      (gray_gray2bin hlt.1).symm, (map_gray_map_gray2bin hlt.2).symm, ?_⟩
    refine ⟨by rw [List.length_map, hlen], by rw [← chainOutput_eq_getLastD, hout], ?_, ?_, ?_⟩
    · refine hadj.imp (fun h => ?_) fun h => (gray_inj hc (next_lt hc _) hcur).1 h
      rw [h, gray2bin_gray hc hcur]
    · simp only [List.mem_cons, List.mem_map, forall_eq_or_imp, forall_exists_index, and_imp,
        forall_apply_eq_imp_iff₂]
      exact ⟨hcur, gray2bin_lt_cap hc _, fun g _ => gray2bin_lt_cap hc g⟩
    · rw [Descending, List.map_cons, List.map_cons, List.map_map]
      exact hdesc
  · rintro ⟨p, vals, rfl, rfl, rfl, hlen, hlast, hadj, hlt, hdesc⟩
    simp only [List.mem_cons, forall_eq_or_imp] at hlt
    obtain ⟨_, hp, hvals⟩ := hlt
    refine ⟨rfl, by rw [List.length_map, hlen], ?_, ?_, ?_, ?_⟩
    · rw [chainOutput_eq_getLastD, map_gray2bin_map_gray hc hvals, hlast]
    · rw [gray2bin_gray hc hp]
      exact hadj.imp (congrArg s.gray) (congrArg s.gray)
    · simp only [List.mem_cons, List.mem_map]
      rintro g (rfl | ⟨x, _, rfl⟩) <;> exact bin2gray_lt ..
    · have hahead : ∀ x ∈ p :: vals, s.copyAhead view (s.gray x) = s.positions view x := by
        intro x hx
        rw [State.copyAhead, gray2bin_gray hc (by grind)]
      rw [Descending, List.map_cons] at hdesc
      rw [← List.map_cons, List.map_map,
        List.map_congr_left (f := s.copyAhead view ∘ s.gray) hahead]
      exact hdesc

namespace Pipeline

variable {cursor view prev : Nat} {vals : List Nat}

theorem cursor_lt (h : Pipeline s cursor view prev vals) : cursor < s.cap := h.lt_cap _ (by simp)

theorem prev_lt (h : Pipeline s cursor view prev vals) : prev < s.cap := h.lt_cap _ (by simp)

theorem val_lt (h : Pipeline s cursor view prev vals) {x : Nat} (hx : x ∈ vals) : x < s.cap :=
  h.lt_cap _ (by simp [hx])

/-- Every stage at the cursor (R41). -/
theorem settled {n : Nat} (hn : 0 < s.cfg.nsync) (hlt : n < s.cap) :
    Pipeline s n n n (List.replicate s.cfg.nsync n) where
  length := List.length_replicate
  last := by
    rw [List.getLastD_eq_getLast?, List.getLast?_replicate, if_neg hn.ne', Option.getD_some]
  adjacent := .inl rfl
  lt_cap := by
    simp only [List.mem_cons, List.mem_replicate]
    rintro x (rfl | rfl | ⟨_, rfl⟩) <;> exact hlt
  descending := by
    rw [descending_iff, ← List.replicate_succ, ← List.replicate_succ, List.pairwise_replicate]
    exact .inr le_rfl

/-- A release store puts the next cursor value in front (R141, R151). -/
theorem publish (hc : s.CapOk) (h : Pipeline s cursor view prev vals) (hv : view < s.cap)
    (hroom : s.positions view cursor + 1 < s.cap) :
    Pipeline s (s.next cursor) view cursor vals where
  length := h.length
  last := h.last
  adjacent := .inr rfl
  lt_cap := by
    have := next_lt hc cursor
    have := h.lt_cap
    grind
  descending := by
    have hnext := positions_next_right hc hv h.cursor_lt hroom
    have hdesc := h.descending
    simp only [descending_iff, List.pairwise_cons, List.mem_cons] at hdesc ⊢
    grind

/-- Moving every value at the view one position on brings all values one position nearer. -/
theorem positions_advanceCopy (hc : s.CapOk) {view x : Nat} (hv : view < s.cap) (hx : x < s.cap) :
    s.positions (s.next view) (advanceCopy view (s.next view) x) = s.positions view x - 1 := by
  unfold advanceCopy
  split
  · next heq => rw [heq, positions_self (next_lt hc view), positions_self hv]
  · next hne => exact positions_next_left hc hv hx (Ne.symm hne)

/-- A SYNC step takes the view one position on, and with it every stage that held it (R180, R181;
log 8). -/
theorem advance (hc : s.CapOk) (hn : 0 < s.cfg.nsync) (h : Pipeline s cursor view prev vals)
    (hv : view < s.cap) (hne : view ≠ cursor) :
    Pipeline s cursor (s.next view) (advanceCopy view (s.next view) prev)
      (vals.map (advanceCopy view (s.next view))) where
  length := by rw [List.length_map, h.length]
  last := by
    have hlast := h.last
    obtain ⟨x, hx⟩ := Option.ne_none_iff_exists'.1
      (mt List.getLast?_eq_none_iff.1 (List.ne_nil_of_length_pos (h.length ▸ hn)))
    rw [List.getLastD_eq_getLast?, hx, Option.getD_some] at hlast
    rw [List.getLastD_eq_getLast?, List.getLast?_map, hx, Option.map_some, Option.getD_some, hlast,
      advanceCopy, if_pos rfl]
  adjacent := by
    unfold advanceCopy
    have hadj := h.adjacent
    split <;> grind
  lt_cap := by
    have := next_lt hc view
    have := h.lt_cap
    simp only [List.mem_cons, List.mem_map, advanceCopy] at this ⊢
    grind
  descending := by
    have hcur : advanceCopy view (s.next view) cursor = cursor := if_neg hne.symm
    rw [← hcur, ← List.map_cons, ← List.map_cons, descending_iff, List.pairwise_map]
    refine (descending_iff.1 h.descending).imp_of_mem fun {a b} ha hb hab => ?_
    rw [positions_advanceCopy hc hv (h.lt_cap a ha), positions_advanceCopy hc hv (h.lt_cap b hb)]
    exact Nat.sub_le_sub_right hab 1

/-- The stages after an edge, the sampled value in front, are no further ahead of the view than the
cursor. -/
theorem descending_shiftChain (h : Pipeline s cursor view prev vals) {q : Nat}
    (hq : q = prev ∨ q = cursor) :
    Descending s view (cursor :: cursor :: shiftChain q vals) := by
  have hdesc := h.descending
  have hsub := fun x => List.dropLast_subset vals (a := x)
  simp only [descending_iff, shiftChain, List.pairwise_cons, List.mem_cons] at hdesc ⊢
  obtain ⟨hcursor, hprev, hvals⟩ := hdesc
  have hdrop := hvals.sublist (List.dropLast_sublist vals)
  grind

theorem shiftChain_lt (h : Pipeline s cursor view prev vals) {q : Nat}
    (hq : q = prev ∨ q = cursor) : ∀ x ∈ cursor :: cursor :: shiftChain q vals, x < s.cap := by
  have hlt := h.lt_cap
  have hsub := fun x => List.dropLast_subset vals (a := x)
  simp only [shiftChain, List.mem_cons] at hlt ⊢
  grind

/-- An edge of the receiving clock shifts the pipeline, takes the last stage as the view, and leaves
no earlier value to sample (R185, R186). The view does not pass the cursor. -/
theorem shift (hn : 0 < s.cfg.nsync) (h : Pipeline s cursor view prev vals)
    (hv : view < s.cap) {q : Nat} (hq : q = prev ∨ q = cursor) :
    Pipeline s cursor ((shiftChain q vals).getLastD 0) cursor (shiftChain q vals) ∧
      s.positions view ((shiftChain q vals).getLastD 0) ≤ s.positions view cursor := by
  have hlt := h.shiftChain_lt hq
  have hdesc := h.descending_shiftChain hq
  have hlen : (shiftChain q vals).length = s.cfg.nsync := by
    have := h.length
    simp only [shiftChain, List.length_cons, List.length_dropLast]
    omega
  obtain ⟨l, last, hl⟩ : ∃ l last, shiftChain q vals = l ++ [last] :=
    ⟨_, _, (List.dropLast_append_getLast (List.cons_ne_nil q vals.dropLast)).symm⟩
  rw [hl] at hlt hdesc hlen ⊢
  have hle : ∀ x ∈ cursor :: cursor :: (l ++ [last]), s.positions view last ≤ s.positions view x :=
    fun x hx => Descending.last_le (vals := cursor :: cursor :: l) hdesc hx
  have hlast : (l ++ [last]).getLastD 0 = last := by simp
  rw [hlast]
  refine ⟨⟨hlen, hlast, .inl rfl, hlt, hdesc.rebase hv (hlt last (by simp)) hlt hle⟩, ?_⟩
  exact hle cursor (by simp)

end Pipeline

/-! ## The invariant of one direction under each move -/

variable {cursor view reg prev : Nat} {chain : List Nat}

theorem crossingOk_settled (hc : s.CapOk) (hn : 0 < s.cfg.nsync) {n : Nat} (hlt : n < s.cap) :
    s.CrossingOk n n (s.gray n) (s.gray n) (List.replicate s.cfg.nsync (s.gray n)) :=
  (crossingOk_iff hc hlt).2 ⟨n, _, rfl, rfl, List.map_replicate.symm, .settled hn hlt⟩

theorem crossingOk_publish (hc : s.CapOk) (h : s.CrossingOk cursor view reg prev chain)
    (hcur : cursor < s.cap) (hv : view < s.cap) (hroom : s.positions view cursor + 1 < s.cap) :
    s.CrossingOk (s.next cursor) view (s.gray (s.next cursor)) reg chain := by
  obtain ⟨p, vals, rfl, _, rfl, hpipe⟩ := (crossingOk_iff hc hcur).1 h
  exact (crossingOk_iff hc (next_lt hc cursor)).2
    ⟨cursor, vals, rfl, rfl, rfl, hpipe.publish hc hv hroom⟩

theorem advanceCopy_gray (hc : s.CapOk) {old x : Nat} (hold : old < s.cap) (hx : x < s.cap)
    (new : Nat) :
    advanceCopy (s.gray old) (s.gray new) (s.gray x) = s.gray (advanceCopy old new x) := by
  simp only [advanceCopy, gray_inj hc hx hold]
  split <;> rfl

theorem crossingOk_advance (hc : s.CapOk) (hn : 0 < s.cfg.nsync)
    (h : s.CrossingOk cursor view reg prev chain) (hcur : cursor < s.cap) (hv : view < s.cap)
    (hne : view ≠ cursor) :
    s.CrossingOk cursor (s.next view) reg (advanceCopy (s.gray view) (s.gray (s.next view)) prev)
      (chain.map (advanceCopy (s.gray view) (s.gray (s.next view)))) := by
  obtain ⟨p, vals, rfl, rfl, rfl, hpipe⟩ := (crossingOk_iff hc hcur).1 h
  refine (crossingOk_iff hc hcur).2 ⟨_, _, rfl, advanceCopy_gray hc hv hpipe.prev_lt _, ?_,
    hpipe.advance hc hn hv hne⟩
  rw [List.map_map, List.map_map]
  exact List.map_congr_left fun x hx => advanceCopy_gray hc hv (hpipe.val_lt hx) _

theorem shiftChain_map (f : Nat → Nat) (q : Nat) (vals : List Nat) :
    shiftChain (f q) (vals.map f) = (shiftChain q vals).map f := by
  rw [shiftChain, shiftChain, List.map_cons, List.map_dropLast]

theorem crossingOk_shift (hc : s.CapOk) (hn : 0 < s.cfg.nsync)
    (h : s.CrossingOk cursor view reg prev chain) (hcur : cursor < s.cap) (hv : view < s.cap)
    (capture : Nat) :
    s.CrossingOk cursor (s.chainOutput (shiftChain (sampleGray prev reg capture) chain)) reg reg
        (shiftChain (sampleGray prev reg capture) chain) ∧
      s.positions view (s.chainOutput (shiftChain (sampleGray prev reg capture) chain)) ≤
        s.positions view cursor := by
  obtain ⟨p, vals, rfl, rfl, rfl, hpipe⟩ := (crossingOk_iff hc hcur).1 h
  obtain ⟨q, hq, hsample⟩ := sampleGray_gray hc hpipe.prev_lt hpipe.adjacent capture
  obtain ⟨hshift, hle⟩ := hpipe.shift hn hv hq
  have hout : s.chainOutput ((shiftChain q vals).map s.gray) = (shiftChain q vals).getLastD 0 := by
    rw [chainOutput_eq_getLastD, map_gray2bin_map_gray hc fun x hx => hshift.val_lt hx]
  rw [hsample, shiftChain_map, hout]
  exact ⟨(crossingOk_iff hc hcur).2 ⟨cursor, _, rfl, rfl, rfl, hshift⟩, hle⟩

end Crossing

end Sys2Proof.Proofs
end

section
/-!
PROOFS. What a step of the machine is made of: the moves. Every event on an existing instance is a
few moves in a row (`step_moves`), and before construction only CONSTRUCT and CONSTRUCT_FROM answer
a next state (`step_constructs`). An invariant is then proved move by move.
-/

namespace Sys2Proof.Proofs

open Sys2Proof Sys2Proof.Machine

/-- One change that a command or an event makes to an instance, with what the machine has tested
before it. -/
inductive Move : State → State → Prop
  /-- The environment's next events and the results at the ports: no state of the spec. -/
  | present (s : State) (o : Outputs) (es : List Event) : Move s { s with out := o, inputs := es }
  | error (s : State) (k : ErrorKind) (a : Agent) (op : Nat) : Move s (raise k a op s)
  | loadReadShadow (s : State) (hd : s.cfg.isDual = true) :
      Move s { s with rdShadow := s.rsync, ghost := { s.ghost with nrc := s.ghost.nrs } }
  | loadWriteShadow (s : State) (hd : s.cfg.isDual = true) :
      Move s { s with wrShadow := s.wsync, ghost := { s.ghost with nwc := s.ghost.nws } }
  | enq {s t : State} {item : Nat} (hroom : s.next s.write ≠ s.readShadow)
      (h : enqCommit s (s.next s.write) item = .ok t) : Move s t
  | deq {s t : State} {item : Nat} (hitem : s.read ≠ s.writeShadow)
      (h : deqCommit s = .ok (t, item)) : Move s t
  /-- A DEQ and an ENQ at one edge of the one clock, both tested on the state before it (R74). -/
  | deqEnq {s t u : State} {item out : Nat} (hd : s.cfg.isDual = false) (hitem : s.read ≠ s.write)
      (hroom : s.next s.write ≠ s.read) (hdeq : deqCommit s = .ok (t, out))
      (henq : enqCommit t (s.next s.write) item = .ok u) : Move s u
  | reset (s : State) : Move s (applyReset s s.cap s.init)
  | openWindow (s : State) : Move s { s with flushing := true }
  | flush (s : State) : Move s (applyFlush s)
  | syncW2r (s : State) (hd : s.cfg.isDual = true) (hne : s.wsync ≠ s.write) :
      Move s
        { s with
          wsync := s.next s.wsync
          w2r := s.w2r.map (advanceCopy (s.gray s.wsync) (s.gray (s.next s.wsync)))
          wgrayPrev := advanceCopy (s.gray s.wsync) (s.gray (s.next s.wsync)) s.wgrayPrev
          ghost := { s.ghost with nws := s.ghost.nws + 1 } }
  | syncR2w (s : State) (hd : s.cfg.isDual = true) (hne : s.rsync ≠ s.read) :
      Move s
        { s with
          rsync := s.next s.rsync
          r2w := s.r2w.map (advanceCopy (s.gray s.rsync) (s.gray (s.next s.rsync)))
          rgrayPrev := advanceCopy (s.gray s.rsync) (s.gray (s.next s.rsync)) s.rgrayPrev
          ghost := { s.ghost with nrs := s.ghost.nrs + 1 } }
  | rclkEdge (s : State) (hd : s.cfg.isDual = true) {chain : List Nat} {capture : Nat}
      (hchain : chain = shiftChain (sampleGray s.wgrayPrev s.wgray capture) s.w2r) :
      Move s
        { s with
          w2r := chain
          wsync := s.chainOutput chain
          wgrayPrev := s.wgray
          ghost := { s.ghost with
            nws := s.ghost.nws + len s.cfg.w s.cap s.wsync (s.chainOutput chain) } }
  | wclkEdge (s : State) (hd : s.cfg.isDual = true) {chain : List Nat} {capture : Nat}
      (hchain : chain = shiftChain (sampleGray s.rgrayPrev s.rgray capture) s.r2w) :
      Move s
        { s with
          r2w := chain
          rsync := s.chainOutput chain
          rgrayPrev := s.rgray
          ghost := { s.ghost with
            nrs := s.ghost.nrs + len s.cfg.w s.cap s.rsync (s.chainOutput chain) } }

/-- A few moves in a row. -/
abbrev Moves : State → State → Prop := Relation.ReflTransGen Move

theorem Move.moves {s t : State} (h : Move s t) : Moves s t := .single h

/-- What every move keeps, moves in a row keep. -/
theorem Moves.keep {P : State → Prop} (hP : ∀ s t, Move s t → P s → P t) {s t : State}
    (h : Moves s t) (hs : P s) : P t := by
  induction h with
  | refl => exact hs
  | tail _ hmove ih => exact hP _ _ hmove ih

/-! ## Each command and event as moves -/

theorem answer_moves {s t u : State} {o : Outputs} (hst : Moves s t) (h : answer o t = .next u) :
    Moves s u := by
  cases h
  exact hst.tail (.present t o t.inputs)

theorem onInstance_answer_moves {s t : State} {o : Outputs}
    (h : onInstance s (answer o s) = .next t) : Moves s t :=
  answer_moves .refl (onInstance_next h).2

theorem portCommand_answer_moves {s t : State} {a : Agent} {op : Nat} {o : Outputs}
    (h : portCommand a op s (answer o s) = .next t) : Moves s t := by
  obtain ⟨_, ⟨_, rfl⟩ | ⟨_, h⟩⟩ := portCommand_next h
  · exact (Move.error ..).moves
  · exact answer_moves .refl h

theorem onNoInstance_next {s t : State} {k : Host.Outcome State Fault Refusal}
    (h : onNoInstance s k = .next t) : s.built = false ∧ k = .next t := by
  unfold onNoInstance at h
  split at h
  · cases h
  · exact ⟨Bool.eq_false_iff.2 ‹_›, h⟩

theorem illegalCommand_moves {s t : State} {a : Agent} {op : Nat}
    (h : illegalCommand a op s = .next t) : Moves s t := by
  obtain ⟨_, rfl⟩ := illegalCommand_next h
  exact (Move.error ..).moves

theorem reloadReadShadow_moves (s : State) (c : Nat) : Moves s (reloadReadShadow s c) := by
  obtain ⟨hreload, h⟩ | ⟨_, h⟩ := reloadReadShadow_cases s c
  · rw [h]
    exact (Move.loadReadShadow s (Bool.and_eq_true_iff.1 hreload).1).moves
  · rw [h]

theorem reloadWriteShadow_moves (s : State) : Moves s (reloadWriteShadow s) := by
  obtain ⟨hreload, h⟩ | ⟨_, h⟩ := reloadWriteShadow_cases s
  · rw [h]
    exact (Move.loadWriteShadow s (Bool.and_eq_true_iff.1 hreload).1).moves
  · rw [h]

/-- The producer's reload leaves the address of the next store alone. -/
theorem reloadReadShadow_next_write (s : State) (c : Nat) :
    (reloadReadShadow s c).next (reloadReadShadow s c).write = s.next s.write := by
  obtain ⟨_, h⟩ | ⟨_, h⟩ := reloadReadShadow_cases s c
  · rw [h]; rfl
  · rw [h]

theorem execEnq_moves {s t : State} {item : Nat} (h : execEnq item s = .next t) : Moves s t := by
  obtain ⟨_, ⟨_, rfl⟩ | ⟨_, h⟩⟩ := portCommand_next h
  · exact (Move.error ..).moves
  have hreload := reloadReadShadow_moves s (s.next s.write)
  obtain ⟨_, hbody⟩ | ⟨e, _, hbody⟩ | ⟨hroom, u, hu, hbody⟩ := enqBody_cases item s
  · exact answer_moves hreload (hbody ▸ h)
  · cases hbody.symm.trans h
    exact (Move.error ..).moves
  · have hnext := reloadReadShadow_next_write s (s.next s.write)
    refine answer_moves (hreload.tail (.enq (item := item) ?_ ?_)) (hbody ▸ h)
    · rwa [hnext]
    · rwa [hnext]

theorem execDeq_moves {s t : State} (h : execDeq s = .next t) : Moves s t := by
  obtain ⟨_, ⟨_, rfl⟩ | ⟨_, h⟩⟩ := portCommand_next h
  · exact (Move.error ..).moves
  have hreload := reloadWriteShadow_moves s
  obtain ⟨_, hbody⟩ | ⟨e, _, hbody⟩ | ⟨hitem, u, item, hu, hbody⟩ := deqBody_cases s
  · exact answer_moves hreload (hbody ▸ h)
  · cases hbody.symm.trans h
    exact (Move.error ..).moves
  · exact answer_moves (hreload.tail (.deq hitem hu)) (hbody ▸ h)

theorem execFlushEnd_moves {s t : State} (h : execFlushEnd s = .next t) : Moves s t := by
  obtain ⟨_, h⟩ := onInstance_next h
  split at h
  · cases h
    exact (Move.flush s).moves
  · cases h
    exact (Move.error ..).moves

theorem execSyncW2r_moves {s t : State} (h : execSyncW2r s = .next t) : Moves s t := by
  obtain ⟨_, h⟩ := onInstance_next h
  split at h
  · next hen =>
    simp only [State.w2rEnabled, Bool.and_eq_true, bne_iff_ne] at hen
    exact answer_moves (Move.syncW2r s hen.1.1 hen.2).moves h
  · cases h

theorem execSyncR2w_moves {s t : State} (h : execSyncR2w s = .next t) : Moves s t := by
  obtain ⟨_, h⟩ := onInstance_next h
  split at h
  · next hen =>
    simp only [State.r2wEnabled, Bool.and_eq_true, bne_iff_ne] at hen
    exact answer_moves (Move.syncR2w s hen.1.1 hen.2).moves h
  · cases h

theorem rclkEdge_moves {s t : State} {c : Nat} (h : rclkEdge c s = .next t) : Moves s t := by
  obtain ⟨_, h⟩ := onInstance_next h
  split at h
  · next hen => exact answer_moves (Move.rclkEdge s (Bool.and_eq_true_iff.1 hen).1 rfl).moves h
  · exact answer_moves .refl h

theorem wclkEdge_moves {s t : State} {c : Nat} (h : wclkEdge c s = .next t) : Moves s t := by
  obtain ⟨_, h⟩ := onInstance_next h
  split at h
  · next hen => exact answer_moves (Move.wclkEdge s (Bool.and_eq_true_iff.1 hen).1 rfl).moves h
  · exact answer_moves .refl h

/-- Everything the DEQ of an edge of the one clock can do. -/
theorem deqAtEdge_cases (s : State) :
    (deqAtEdge s).1 = s ∨ (∃ k, (deqAtEdge s).1 = raise k .consumer 0x2 s) ∨
      (s.read ≠ s.write ∧ ∃ item, deqCommit s = .ok ((deqAtEdge s).1, item)) := by
  unfold deqAtEdge
  split
  · exact .inl rfl
  · next hne =>
    split
    · exact .inr (.inl ⟨_, rfl⟩)
    · next hdeq => exact .inr (.inr ⟨by simpa using hne, _, hdeq⟩)

/-- Everything the ENQ of an edge of the one clock can do. -/
theorem enqAtEdge_cases (before : State) (item : Nat) (s : State) :
    (enqAtEdge before item s).1 = s ∨
      (∃ k, (enqAtEdge before item s).1 = raise k .producer 0x1 s) ∨
      (before.next before.write ≠ before.read ∧
        enqCommit s (before.next before.write) item = .ok (enqAtEdge before item s).1) := by
  simp only [enqAtEdge]
  split
  · exact .inl rfl
  · next hne =>
    split
    · exact .inr (.inl ⟨_, rfl⟩)
    · next henq => exact .inr (.inr ⟨by simpa using hne, henq⟩)

theorem enqAtEdge_moves (before : State) {item : Nat} {s : State}
    (hcommit : ∀ t, before.next before.write ≠ before.read →
      enqCommit s (before.next before.write) item = .ok t → Moves before t)
    (hs : Moves before s) : Moves before (enqAtEdge before item s).1 := by
  obtain h | ⟨k, h⟩ | ⟨hroom, h⟩ := enqAtEdge_cases before item s
  · rw [h]; exact hs
  · rw [h]; exact hs.tail (.error ..)
  · exact hcommit _ hroom h

theorem oneClockEdge_moves {s t : State} {item : Nat} (hd : s.cfg.isDual = false)
    (h : oneClockEdge item s = .next t) : Moves s t := by
  have hshadow : s.readShadow = s.read := by simp [State.readShadow, hd]
  refine answer_moves (enqAtEdge_moves s ?_ ?_) h
  · intro u hroom henq
    obtain hdeq | ⟨k, hdeq⟩ | ⟨hitem, out, hdeq⟩ := deqAtEdge_cases s
    · rw [hdeq] at henq
      exact (Move.enq (hshadow ▸ hroom) henq).moves
    · rw [hdeq] at henq
      exact (Move.error s k _ _).moves.tail
        (.enq (s := raise k .consumer 0x2 s) (hshadow ▸ hroom) henq)
    · exact (Move.deqEnq hd hitem hroom hdeq henq).moves
  · obtain hdeq | ⟨k, hdeq⟩ | ⟨hitem, out, hdeq⟩ := deqAtEdge_cases s
    · rw [hdeq]
    · rw [hdeq]; exact (Move.error ..).moves
    · refine (Move.deq ?_ hdeq).moves
      simpa [State.writeShadow, hd] using hitem

theorem sameEdge_moves {s u : State} {p : Bool} {item : Nat} (h : sameEdge p item s = .next u) :
    Moves s u := by
  obtain ⟨_, ⟨_, ⟨_, t, v, ht, hv, rfl⟩ | ⟨_, t, v, ht, hv, rfl⟩⟩ | ⟨hd, _, hone⟩⟩ :=
    sameEdge_next h
  · exact ((execEnq_moves ht).trans (execDeq_moves hv)).tail (.present v _ v.inputs)
  · exact ((execDeq_moves ht).trans (execEnq_moves hv)).tail (.present v _ v.inputs)
  · exact oneClockEdge_moves hd hone

/-- A command on an existing instance is a few moves. -/
theorem exec_moves {s t : State} (hb : s.built = true) {i : Instr} (h : exec i s = .next t) :
    Moves s t := by
  cases i with
  | nopP | nopC | hnop => exact onInstance_answer_moves h
  | lenP | isEmptyP | isFullP | capP | dbgP => exact portCommand_answer_moves h
  | lenC | isEmptyC | isFullC | capC | dbgC => exact portCommand_answer_moves h
  | enq item => exact execEnq_moves h
  | deq => exact execDeq_moves h
  | flushBegin => exact answer_moves (Move.openWindow s).moves (onInstance_next h).2
  | flushEnd => exact execFlushEnd_moves h
  | reset =>
    obtain ⟨_, h⟩ := onInstance_next h
    cases h
    exact (Move.reset s).moves
  | construct | constructFrom => exact absurd hb (Bool.eq_false_iff.1 (onNoInstance_next h).1)
  | syncW2r => exact execSyncW2r_moves h
  | syncR2w => exact execSyncR2w_moves h
  | illegalPDeq | reservedP | illegalCEnq | reservedC => exact illegalCommand_moves h

/-- A step of an existing instance is a few moves. -/
theorem step_moves {s t : State} (hb : s.built = true) (h : step s = .next t) : Moves s t := by
  obtain ⟨_, hstep⟩ | ⟨e, rest, _, hevent⟩ := step_cases s
  · exact exec_moves hb (hstep ▸ h)
  · have htake : Moves s { s with inputs := rest } := (Move.present s s.out rest).moves
    obtain ⟨_, i, _, _, hstep⟩ | ⟨_, _, _, _, hstep⟩ | ⟨c, _, hstep⟩ | ⟨c, _, hstep⟩ |
      ⟨x, p, _, hstep⟩ := hevent
    · exact htake.trans (exec_moves (s := { s with inputs := rest }) hb (hstep ▸ h))
    · cases hstep.symm.trans h
    · exact htake.trans (wclkEdge_moves (hstep ▸ h))
    · exact htake.trans (rclkEdge_moves (hstep ▸ h))
    · exact htake.trans (sameEdge_moves (hstep ▸ h))

/-! ## Construction -/

/-- `t` is the instance that construction makes on `s` (R120, R122). -/
def Constructs (s t : State) : Prop :=
  ∃ n cap init, nextPow2 s.cfg.w n = .ok cap ∧ init.length ≤ usableCap cap ∧
    t = { applyReset s cap init with fault := [] }

/-- Before construction only CONSTRUCT and CONSTRUCT_FROM answer a next state (R121). -/
theorem exec_constructs {s t : State} (hb : s.built = false) {i : Instr} (h : exec i s = .next t) :
    Constructs s t := by
  have hno : ∀ k, onInstance s k ≠ .next t := fun k hk => by
    rw [(onInstance_next hk).1] at hb
    cases hb
  cases i with
  | construct hint =>
    obtain ⟨_, h⟩ := onNoInstance_next h
    split at h
    · cases h
    · next cap hcap =>
      cases h
      exact ⟨hint, cap, [], hcap, Nat.zero_le _, rfl⟩
  | constructFrom init =>
    obtain ⟨_, h⟩ := onNoInstance_next h
    split at h
    · cases h
    · next cap hcap =>
      split at h
      · cases h
      · next hfits =>
        cases h
        exact ⟨init.length, cap, init, hcap, Nat.le_of_not_gt hfits, rfl⟩
  | _ => exact absurd h (hno _)

theorem step_constructs {s t : State} (hb : s.built = false) (h : step s = .next t) :
    ∃ rest, Constructs { s with inputs := rest } t := by
  obtain ⟨_, hstep⟩ | ⟨e, rest, _, hevent⟩ := step_cases s
  · exact ⟨s.inputs, exec_constructs hb (hstep ▸ h)⟩
  · have hno : ∀ k, onInstance { s with inputs := rest } k ≠ .next t := fun k hk => by
      rw [show s.built = true from (onInstance_next hk).1] at hb
      cases hb
    refine ⟨rest, ?_⟩
    obtain ⟨_, i, _, _, hstep⟩ | ⟨_, _, _, _, hstep⟩ | ⟨c, _, hstep⟩ | ⟨c, _, hstep⟩ |
      ⟨x, p, _, hstep⟩ := hevent
    · exact exec_constructs (s := { s with inputs := rest }) hb (hstep ▸ h)
    · cases hstep.symm.trans h
    · exact absurd (hstep ▸ h) (hno _)
    · exact absurd (hstep ▸ h) (hno _)
    · exact absurd (hstep ▸ h) (hno _)

end Sys2Proof.Proofs
end

section
/-!
PROOFS. What every step keeps of the single parts of the state: the fault record (R34), the slot
array's form (R31, R50), the two domains (R42), the constants (R7) and the ranges (R38).
-/

namespace Sys2Proof.Proofs

open Sys2Proof Sys2Proof.Machine

/-! ## What the stores of ENQ and DEQ leave -/

/-- The state a successful DEQ leaves: `read` one on, the slot it took left alone or overwritten. -/
theorem deqCommit_state {s t : State} {item : Nat} (h : deqCommit s = .ok (t, item)) :
    ∃ m, (m = s.slots ∨ s.next s.read < s.cap ∧
        m = Memory.write s.slots (s.next s.read) (dataField s.cfg.dw zeroDatum)) ∧
      t = publishRead { s with slots := m } (s.next s.read) := by
  obtain ⟨_, _, u, hclear, rfl⟩ := deqCommit_eq_ok h
  obtain ⟨_, rfl⟩ | ⟨_, hlt, rfl⟩ := clearSlot_eq_ok hclear
  · exact ⟨_, .inl rfl, rfl⟩
  · exact ⟨_, .inr ⟨hlt, rfl⟩, rfl⟩

/-! ## The fault record -/

theorem fault_of_enqCommit {s t : State} {c item : Nat} (h : enqCommit s c item = .ok t) :
    t.fault = s.fault := by
  obtain ⟨_, rfl⟩ := enqCommit_eq_ok.1 h
  rfl

theorem fault_of_deqCommit {s t : State} {item : Nat} (h : deqCommit s = .ok (t, item)) :
    t.fault = s.fault := by
  obtain ⟨_, _, rfl⟩ := deqCommit_state h
  rfl

/-- An error appends one entry, and no other move touches `fault` (R34, R201). -/
theorem Move.fault_prefix {s t : State} (h : Move s t) : s.fault <+: t.fault := by
  cases h with
  | error => exact List.prefix_append ..
  | enq _ henq => rw [fault_of_enqCommit henq]
  | deq _ hdeq => rw [fault_of_deqCommit hdeq]
  | deqEnq _ _ _ hdeq henq => rw [fault_of_enqCommit henq, fault_of_deqCommit hdeq]
  | _ => exact List.prefix_rfl

/-- Settles O40: every move keeps the entries of `fault` in front. -/
theorem faultRecordOnlyGrows : Obligations.FaultRecordOnlyGrows := by
  intro s t hb h
  obtain ⟨added, hadded⟩ : s.fault <+: t.fault :=
    (step_moves hb h).keep (P := fun u => s.fault <+: u.fault)
      (fun _ _ hmove hfront => hfront.trans hmove.fault_prefix) List.prefix_rfl
  exact ⟨added, hadded.symm⟩

/-! ## The canonical form of the slots -/

theorem slots_wf_of_enqCommit {s t : State} {c item : Nat} (h : enqCommit s c item = .ok t)
    (hwf : Memory.wf s.slots = true) : Memory.wf t.slots = true := by
  obtain ⟨_, rfl⟩ := enqCommit_eq_ok.1 h
  exact memory_write_wf _ _ _ hwf

theorem slots_wf_of_deqCommit {s t : State} {item : Nat} (h : deqCommit s = .ok (t, item))
    (hwf : Memory.wf s.slots = true) : Memory.wf t.slots = true := by
  obtain ⟨m, rfl | ⟨_, rfl⟩, rfl⟩ := deqCommit_state h
  · exact hwf
  · exact memory_write_wf _ _ _ hwf

theorem Move.slots_wf {s t : State} (h : Move s t) (hwf : Memory.wf s.slots = true) :
    Memory.wf t.slots = true := by
  cases h with
  | enq _ henq => exact slots_wf_of_enqCommit henq hwf
  | deq _ hdeq => exact slots_wf_of_deqCommit hdeq hwf
  | deqEnq _ _ _ hdeq henq => exact slots_wf_of_enqCommit henq (slots_wf_of_deqCommit hdeq hwf)
  | reset => exact initialSlots_wf ..
  | _ => exact hwf

/-- Settles O52: every move keeps the form, and construction fills the slots in it. -/
theorem slotArrayStaysCanonical : Obligations.SlotArrayStaysCanonical := by
  intro s t hwf h
  cases hb : s.built with
  | true =>
    exact (step_moves hb h).keep (P := fun u => Memory.wf u.slots = true)
      (fun _ _ hmove => hmove.slots_wf) hwf
  | false =>
    obtain ⟨_, _, _, _, _, _, rfl⟩ := step_constructs hb h
    exact initialSlots_wf ..

/-! ## The domains of the ports -/

/-- Whatever ENQ answers, it writes nothing but the fields named here (R141). -/
theorem execEnq_frame {s t : State} {item : Nat} (h : execEnq item s = .next t) :
    t = { s with
      write := t.write, wgray := t.wgray, wgrayPrev := t.wgrayPrev, rdShadow := t.rdShadow,
      slots := t.slots, fault := t.fault, ghost := t.ghost, out := t.out } := by
  obtain ⟨_, ⟨_, rfl⟩ | ⟨_, h⟩⟩ := portCommand_next h
  · rfl
  obtain ⟨_, hbody⟩ | ⟨e, _, hbody⟩ | ⟨_, u, hu, hbody⟩ := enqBody_cases item s
  · cases hbody.symm.trans h
    obtain ⟨_, hreload⟩ | ⟨_, hreload⟩ := reloadReadShadow_cases s (s.next s.write) <;> rw [hreload]
  · cases hbody.symm.trans h
    rfl
  · cases hbody.symm.trans h
    obtain ⟨_, rfl⟩ := enqCommit_eq_ok.1 hu
    obtain ⟨_, hreload⟩ | ⟨_, hreload⟩ := reloadReadShadow_cases s (s.next s.write) <;>
      rw [hreload] <;> rfl

/-- Whatever DEQ answers, it writes nothing but the fields named here (R151). -/
theorem execDeq_frame {s t : State} (h : execDeq s = .next t) :
    t = { s with
      read := t.read, rgray := t.rgray, rgrayPrev := t.rgrayPrev, wrShadow := t.wrShadow,
      slots := t.slots, fault := t.fault, ghost := t.ghost, out := t.out } := by
  obtain ⟨_, ⟨_, rfl⟩ | ⟨_, h⟩⟩ := portCommand_next h
  · rfl
  obtain ⟨_, hbody⟩ | ⟨e, _, hbody⟩ | ⟨_, u, item, hu, hbody⟩ := deqBody_cases s
  · cases hbody.symm.trans h
    obtain ⟨_, hreload⟩ | ⟨_, hreload⟩ := reloadWriteShadow_cases s <;> rw [hreload]
  · cases hbody.symm.trans h
    rfl
  · cases hbody.symm.trans h
    obtain ⟨_, _, rfl⟩ := deqCommit_state hu
    obtain ⟨_, hreload⟩ | ⟨_, hreload⟩ := reloadWriteShadow_cases s <;> rw [hreload] <;> rfl

/-- NOP, a status command or an illegal encoding writes `fault` and the results at most. -/
theorem onInstance_answer_frame {s t : State} {o : Outputs}
    (h : onInstance s (answer o s) = .next t) : t = { s with fault := t.fault, out := t.out } := by
  obtain ⟨_, h⟩ := onInstance_next h
  cases h
  rfl

theorem portCommand_answer_frame {s t : State} {a : Agent} {op : Nat} {o : Outputs}
    (h : portCommand a op s (answer o s) = .next t) :
    t = { s with fault := t.fault, out := t.out } := by
  obtain ⟨_, ⟨_, rfl⟩ | ⟨_, h⟩⟩ := portCommand_next h
  · rfl
  · cases h
    rfl

theorem illegalCommand_frame {s t : State} {a : Agent} {op : Nat}
    (h : illegalCommand a op s = .next t) : t = { s with fault := t.fault, out := t.out } := by
  obtain ⟨_, rfl⟩ := illegalCommand_next h
  rfl

/-- On ports P and C only ENQ and DEQ write anything but `fault` and the results. -/
theorem exec_port_frame {s t : State} {i : Instr}
    (hp : portOf i = some .producer ∨ portOf i = some .consumer) (henq : ∀ x, i ≠ .enq x)
    (hdeq : i ≠ .deq) (h : exec i s = .next t) : t = { s with fault := t.fault, out := t.out } := by
  cases i with
  | nopP | nopC => exact onInstance_answer_frame h
  | lenP | isEmptyP | isFullP | capP | dbgP => exact portCommand_answer_frame h
  | lenC | isEmptyC | isFullC | capC | dbgC => exact portCommand_answer_frame h
  | enq item => exact absurd rfl (henq item)
  | deq => exact absurd rfl hdeq
  | hnop | flushBegin | flushEnd | reset => simp [portOf] at hp
  | construct | constructFrom | syncW2r | syncR2w => simp [portOf] at hp
  | illegalPDeq | reservedP | illegalCEnq | reservedC => exact illegalCommand_frame h

/-- A command on port P writes what ENQ writes at most. -/
theorem exec_producer_frame {s t : State} {i : Instr} (hp : portOf i = some .producer)
    (h : exec i s = .next t) :
    t = { s with
      write := t.write, wgray := t.wgray, wgrayPrev := t.wgrayPrev, rdShadow := t.rdShadow,
      slots := t.slots, fault := t.fault, ghost := t.ghost, out := t.out } := by
  by_cases henq : ∃ x, i = .enq x
  · obtain ⟨x, rfl⟩ := henq
    exact execEnq_frame h
  · have hframe := exec_port_frame (.inl hp) (fun x hx => henq ⟨x, hx⟩) (by rintro rfl; cases hp) h
    rw [hframe]

/-- A command on port C writes what DEQ writes at most. -/
theorem exec_consumer_frame {s t : State} {i : Instr} (hp : portOf i = some .consumer)
    (h : exec i s = .next t) :
    t = { s with
      read := t.read, rgray := t.rgray, rgrayPrev := t.rgrayPrev, wrShadow := t.wrShadow,
      slots := t.slots, fault := t.fault, ghost := t.ghost, out := t.out } := by
  by_cases hdeq : i = .deq
  · subst hdeq
    exact execDeq_frame h
  · have hframe := exec_port_frame (.inr hp) (by rintro x rfl; cases hp) hdeq h
    rw [hframe]

/-- Settles O55: on each port only ENQ or DEQ writes registers, and what they write is in the port's
domain. -/
theorem portsWriteOnlyTheirOwnDomain : Obligations.PortsWriteOnlyTheirOwnDomain := by
  intro s t i h
  refine ⟨fun hp => ?_, fun hp => ?_⟩
  · rw [exec_producer_frame hp h]
    exact ⟨rfl, rfl, rfl, rfl, rfl, rfl, rfl, rfl⟩
  · rw [exec_consumer_frame hp h]
    exact ⟨rfl, rfl, rfl, rfl, rfl, rfl, rfl, rfl⟩

/-! ## Constants and ranges -/

theorem capOk_of_enqCommit {s t : State} {c item : Nat} (h : enqCommit s c item = .ok t)
    (hc : s.CapOk) : t.CapOk := by
  obtain ⟨_, rfl⟩ := enqCommit_eq_ok.1 h
  exact hc

theorem capOk_of_deqCommit {s t : State} {item : Nat} (h : deqCommit s = .ok (t, item))
    (hc : s.CapOk) : t.CapOk := by
  obtain ⟨_, _, rfl⟩ := deqCommit_state h
  exact hc

theorem Move.capOk {s t : State} (h : Move s t) (hc : s.CapOk) : t.CapOk := by
  cases h with
  | enq _ henq => exact capOk_of_enqCommit henq hc
  | deq _ hdeq => exact capOk_of_deqCommit hdeq hc
  | deqEnq _ _ _ hdeq henq => exact capOk_of_enqCommit henq (capOk_of_deqCommit hdeq hc)
  | _ => exact hc

/-- `doubleUntil` from a power of two gives a power of two, and none above one that `n` does not
exceed. -/
theorem doubleUntil_two_pow {n m : Nat} (hn : n ≤ 2 ^ m) :
    ∀ (fuel j : Nat), j ≤ m → ∃ k, doubleUntil n fuel (2 ^ j) = 2 ^ k ∧ j ≤ k ∧ k ≤ m
  | 0, j, hj => ⟨j, rfl, le_rfl, hj⟩
  | fuel + 1, j, hj => by
    rw [doubleUntil]
    split
    · exact ⟨j, rfl, le_rfl, hj⟩
    · next hlt =>
      have hjm : j < m :=
        (Nat.pow_lt_pow_iff_right (by decide)).1 ((Nat.lt_of_not_le hlt).trans_le hn)
      obtain ⟨k, hk, hjk, hkm⟩ := doubleUntil_two_pow hn fuel (j + 1) hjm
      exact ⟨k, by rw [← Nat.pow_succ', hk], by omega, hkm⟩

/-- A capacity that rounding gives is a legal one (R101, R103). -/
theorem nextPow2_eq_ok {w n cap : Nat} (hw : 2 ≤ w) (h : nextPow2 w n = .ok cap) :
    ∃ k, cap = 2 ^ k ∧ 1 ≤ k ∧ k + 1 ≤ w := by
  unfold nextPow2 at h
  split at h
  · cases h
  · next hn =>
    obtain ⟨k, hk, h1k, hkw⟩ := doubleUntil_two_pow (Nat.le_of_not_gt hn) w 1 (by omega)
    cases h
    exact ⟨k, hk, h1k, by omega⟩

/-- A state whose registers are as reset leaves them, with `n` items (R41) or, after a flush, none
(R127). -/
structure FreshAt (s : State) (n : Nat) : Prop where
  fits : n ≤ usableCap s.cap
  write : s.write = n
  read : s.read = 0
  rdShadow : s.rdShadow = 0
  wrShadow : s.wrShadow = s.whenDual n
  rsync : s.rsync = 0
  wsync : s.wsync = s.whenDual n
  wgray : s.wgray = s.grayReg n
  rgray : s.rgray = 0
  w2r : s.w2r = s.settledChain n
  r2w : s.r2w = s.settledChain 0
  wgrayPrev : s.wgrayPrev = s.grayReg n
  rgrayPrev : s.rgrayPrev = 0
  ghost : s.ghost = { nw := n, nr := 0, nws := n, nwc := n, nrs := 0, nrc := 0 }

theorem freshAt_applyReset {s : State} {cap : Nat} {init : List Nat}
    (hfits : init.length ≤ usableCap cap) : FreshAt (applyReset s cap init) init.length :=
  ⟨hfits, rfl, rfl, rfl, rfl, rfl, rfl, rfl, rfl, rfl, rfl, rfl, rfl, rfl⟩

@[simp] theorem whenDual_zero (s : State) : s.whenDual 0 = 0 := by simp [State.whenDual]

@[simp] theorem grayReg_zero (s : State) : s.grayReg 0 = 0 := by simp [State.grayReg, State.gray]

theorem freshAt_applyFlush (s : State) : FreshAt (applyFlush s) 0 :=
  ⟨Nat.zero_le _, rfl, rfl, rfl, (whenDual_zero s).symm, rfl, (whenDual_zero s).symm,
    (grayReg_zero s).symm, rfl, rfl, rfl, (grayReg_zero s).symm, rfl, rfl⟩

theorem whenDual_lt {s : State} {n m : Nat} (h : n < m) : s.whenDual n < m := by
  unfold State.whenDual
  split <;> omega

theorem FreshAt.lt_cap {s : State} {n : Nat} (h : FreshAt s n) (hc : s.CapOk) : n < s.cap := by
  have hcap := two_le_cap hc
  have hfits := h.fits
  unfold usableCap at hfits
  omega

theorem FreshAt.inRange {s : State} {n : Nat} (h : FreshAt s n) (hc : s.CapOk) : s.InRange := by
  have hlt := h.lt_cap hc
  have hpos := Nat.zero_lt_of_lt hlt
  rw [State.InRange, h.write, h.read, h.rdShadow, h.wrShadow, h.rsync, h.wsync]
  exact ⟨hlt, hpos, hpos, whenDual_lt hlt, hpos, whenDual_lt hlt⟩

theorem inRange_of_enqCommit {s t : State} {c item : Nat} (h : s.InRange)
    (henq : enqCommit s c item = .ok t) : t.InRange := by
  obtain ⟨hlt, rfl⟩ := enqCommit_eq_ok.1 henq
  exact ⟨hlt, h.2⟩

theorem inRange_of_deqCommit {s t : State} {item : Nat} (hc : s.CapOk) (h : s.InRange)
    (hdeq : deqCommit s = .ok (t, item)) : t.InRange := by
  obtain ⟨_, _, rfl⟩ := deqCommit_state hdeq
  obtain ⟨hwrite, _, hviews⟩ := h
  exact ⟨hwrite, next_lt hc _, hviews⟩

/-- R38 needs nothing else of the invariant: `inc` and the decoders of the chains stay in range. -/
theorem Move.inRange {s t : State} (h : Move s t) (hc : s.CapOk) (hr : s.InRange) : t.InRange := by
  have ⟨hwrite, hread, hrdShadow, hwrShadow, hrsync, hwsync⟩ := hr
  cases h with
  | present | error | openWindow => exact hr
  | loadReadShadow => exact ⟨hwrite, hread, hrsync, hwrShadow, hrsync, hwsync⟩
  | loadWriteShadow => exact ⟨hwrite, hread, hrdShadow, hwsync, hrsync, hwsync⟩
  | enq _ henq => exact inRange_of_enqCommit hr henq
  | deq _ hdeq => exact inRange_of_deqCommit hc hr hdeq
  | deqEnq _ _ _ hdeq henq => exact inRange_of_enqCommit (inRange_of_deqCommit hc hr hdeq) henq
  | reset => exact (freshAt_applyReset (init_fits hc)).inRange hc
  | flush => exact (freshAt_applyFlush s).inRange hc
  | syncW2r => exact ⟨hwrite, hread, hrdShadow, hwrShadow, hrsync, next_lt hc _⟩
  | syncR2w => exact ⟨hwrite, hread, hrdShadow, hwrShadow, next_lt hc _, hwsync⟩
  | rclkEdge => exact ⟨hwrite, hread, hrdShadow, hwrShadow, hrsync, chainOutput_lt hc _⟩
  | wclkEdge => exact ⟨hwrite, hread, hrdShadow, hwrShadow, chainOutput_lt hc _, hwsync⟩

/-- Construction makes legal constants (R101, R103, R122). -/
theorem Constructs.capOk {s t : State} (h : Constructs s t) (hcfg : s.cfg.Ok) : t.CapOk := by
  obtain ⟨n, cap, init, hcap, hfits, rfl⟩ := h
  obtain ⟨k, rfl, h1k, hkw⟩ := nextPow2_eq_ok hcfg.1 hcap
  have hk := addrWidth_two_pow k
  exact ⟨(congrArg _ hk).symm, h1k.trans_eq hk.symm, (congrArg _ hk).trans_le hkw, hfits⟩

theorem Constructs.inRange {s t : State} (h : Constructs s t) (hc : t.CapOk) : t.InRange := by
  obtain ⟨_, _, _, _, hfits, rfl⟩ := h
  exact (freshAt_applyReset hfits).inRange hc

/-- Settles O51: every move keeps the ranges on legal constants, and construction makes both. -/
theorem cursorsStayInRange : Obligations.CursorsStayInRange := by
  intro s t hcfg hinst h _
  cases hb : s.built with
  | true =>
    exact (step_moves hb h).keep (P := fun u => u.CapOk ∧ u.InRange)
      (fun _ _ hmove ⟨hc, hr⟩ => ⟨hmove.capOk hc, hmove.inRange hc hr⟩) (hinst hb)
  | false =>
    obtain ⟨_, hmade⟩ := step_constructs hb h
    have hc := hmade.capOk hcfg
    exact ⟨hc, hmade.inRange hc⟩

end Sys2Proof.Proofs
end

section
/-!
PROOFS. The invariant of the machine (R37, R38, R39, R30): each move keeps it, and the state after
construction, RESET and FLUSH_END has it.
-/

namespace Sys2Proof.Proofs

open Sys2Proof Sys2Proof.Machine

/-! ## The slots -/

theorem slotsOk_write {s : State} (h : s.SlotsOk) {i : Nat} (hi : i < s.cap) (v : Nat) :
    ({ s with slots := Memory.write s.slots i (dataField s.cfg.dw v) } : State).SlotsOk := by
  obtain ⟨hwf, hentries⟩ := h
  refine ⟨memory_write_wf _ _ _ hwf, fun c hmem => ?_⟩
  obtain rfl | hmem := memory_mem_write hmem
  · exact ⟨hi, Nat.mod_lt _ (Nat.two_pow_pos _)⟩
  · exact hentries c hmem

theorem initialSlots_mem {dw : Nat} {c : Nat × Nat} :
    ∀ {init : List Nat} {i : Nat}, c ∈ initialSlots dw i init →
      c.1 < i + init.length ∧ c.2 < 2 ^ dw
  | [], _, h => nomatch h
  | v :: rest, i, h => by
    obtain rfl | h := List.mem_cons.1 h
    · exact ⟨by simp, Nat.mod_lt _ (Nat.two_pow_pos _)⟩
    · have ih := initialSlots_mem h
      exact ⟨by rw [List.length_cons]; omega, ih.2⟩

theorem isSome_read_write {m : Memory} {k : Nat} (h : (Memory.read m k).isSome = true) (i v : Nat) :
    (Memory.read (Memory.write m i v) k).isSome = true := by
  by_cases hk : k = i
  · rw [hk, memory_read_write_same]
    rfl
  · rwa [memory_read_write_other m i k v hk]

/-! ## A fresh state -/

theorem FreshAt.viewsOrdered {s : State} {n : Nat} (h : FreshAt s n) (hc : s.CapOk) :
    s.ViewsOrdered := by
  have hmod := Nat.mod_eq_of_lt (h.lt_cap hc)
  have hfits := h.fits
  simp only [State.ViewsOrdered, Ghost.Ordered, State.writeView, State.writeShadow, State.readView,
    State.readShadow, h.ghost, h.write, h.read, h.rdShadow, h.wrShadow, h.rsync, h.wsync,
    State.whenDual, hmod, Nat.zero_mod]
  refine ⟨⟨le_rfl, le_rfl, Nat.zero_le n, le_rfl, le_rfl, by omega⟩, trivial, ?_⟩
  cases s.cfg.isDual <;> simp

theorem FreshAt.structureOk {s : State} {n : Nat} (h : FreshAt s n) (hc : s.CapOk)
    (hn : 0 < s.cfg.nsync) : s.StructureOk := by
  have hlt := h.lt_cap hc
  simp only [State.StructureOk, State.NoCrossing, h.write, h.read, h.rdShadow, h.wrShadow, h.rsync,
    h.wsync, h.wgray, h.rgray, h.w2r, h.r2w, h.wgrayPrev, h.rgrayPrev, State.grayReg,
    State.whenDual, State.settledChain]
  split
  · have hzero := crossingOk_settled hc hn (Nat.zero_lt_of_lt hlt)
    rw [show s.gray 0 = 0 from bin2gray_zero _] at hzero ⊢
    exact ⟨crossingOk_settled hc hn hlt, hzero⟩
  · simp

theorem FreshAt.occupancy {s : State} {n : Nat} (h : FreshAt s n) (hc : s.CapOk) :
    s.occupancy = n := by
  have hlt := h.lt_cap hc
  rw [State.occupancy, h.read, h.write, positions_eq_ite (Nat.zero_lt_of_lt hlt) hlt,
    if_pos (Nat.zero_le n), Nat.sub_zero]

theorem FreshAt.occupiedSlot {s : State} {n k : Nat} (h : FreshAt s n) (hc : s.CapOk) (hk : k < n) :
    s.occupiedSlot k = 1 + k := by
  have hlt := h.lt_cap hc
  rw [State.occupiedSlot, h.read, Nat.mod_eq_of_lt (by omega)]
  omega

theorem FreshAt.instanceInv {s : State} {n : Nat} (h : FreshAt s n) (hc : s.CapOk)
    (hn : 0 < s.cfg.nsync) (hslots : s.SlotsOk)
    (hwritten : ∀ k < n, (Memory.read s.slots (1 + k)).isSome = true) : s.InstanceInv := by
  refine ⟨hc, h.inRange hc, hslots, h.viewsOrdered hc, fun k hk => ?_, h.structureOk hc hn⟩
  rw [h.occupancy hc] at hk
  rw [h.occupiedSlot hc hk]
  exact hwritten k hk

/-- The state that construction and RESET make is sound (R41). -/
theorem applyReset_instanceInv {s : State} {cap : Nat} {init : List Nat} (hcfg : s.cfg.Ok)
    (hc : (applyReset s cap init).CapOk) : (applyReset s cap init).InstanceInv := by
  have hfresh : FreshAt (applyReset s cap init) init.length := freshAt_applyReset (init_fits hc)
  have hlt : init.length < cap := hfresh.lt_cap hc
  refine hfresh.instanceInv hc (nsync_pos hcfg) ?_ fun k hk => ?_
  · refine ⟨initialSlots_wf .., fun c hmem => ?_⟩
    obtain ⟨hindex, hvalue⟩ := initialSlots_mem hmem
    exact ⟨show c.1 < cap by omega, hvalue⟩
  · rw [applyReset_slots, initialSlots_read, Option.isSome_map, List.getElem?_eq_getElem hk]
    rfl

theorem applyFlush_instanceInv {s : State} (hcfg : s.cfg.Ok) (hc : s.CapOk) (hslots : s.SlotsOk) :
    (applyFlush s).InstanceInv :=
  (freshAt_applyFlush s).instanceInv hc (nsync_pos hcfg) hslots
    fun k hk => absurd hk (Nat.not_lt_zero k)

/-! ## The parts of the invariant with two clocks and with one -/

theorem viewsOrdered_of_dual {s : State} (hd : s.cfg.isDual = true) :
    s.ViewsOrdered ↔ s.ghost.Ordered (usableCap s.cap) ∧
      s.write = s.ghost.nw % s.cap ∧ s.wsync = s.ghost.nws % s.cap ∧
      s.wrShadow = s.ghost.nwc % s.cap ∧ s.read = s.ghost.nr % s.cap ∧
      s.rsync = s.ghost.nrs % s.cap ∧ s.rdShadow = s.ghost.nrc % s.cap := by
  rw [State.ViewsOrdered, State.writeView, State.writeShadow, State.readView, State.readShadow,
    if_pos hd, if_pos hd, if_pos hd, if_pos hd]

theorem viewsOrdered_of_single {s : State} (hd : s.cfg.isDual = false) :
    s.ViewsOrdered ↔ s.ghost.Ordered (usableCap s.cap) ∧
      s.write = s.ghost.nw % s.cap ∧ s.write = s.ghost.nws % s.cap ∧
      s.write = s.ghost.nwc % s.cap ∧ s.read = s.ghost.nr % s.cap ∧
      s.read = s.ghost.nrs % s.cap ∧ s.read = s.ghost.nrc % s.cap := by
  have hd := Bool.eq_false_iff.1 hd
  rw [State.ViewsOrdered, State.writeView, State.writeShadow, State.readView, State.readShadow,
    if_neg hd, if_neg hd, if_neg hd, if_neg hd]

theorem structureOk_of_dual {s : State} (hd : s.cfg.isDual = true) :
    s.StructureOk ↔ s.CrossingOk s.write s.wsync s.wgray s.wgrayPrev s.w2r ∧
      s.CrossingOk s.read s.rsync s.rgray s.rgrayPrev s.r2w := by
  rw [State.StructureOk, if_pos hd]

theorem structureOk_of_single {s : State} (hd : s.cfg.isDual = false) :
    s.StructureOk ↔ s.NoCrossing := by
  rw [State.StructureOk, if_neg (Bool.eq_false_iff.1 hd)]

theorem grayReg_of_dual {s : State} (hd : s.cfg.isDual = true) (c : Nat) :
    s.grayReg c = s.gray c := if_pos hd

theorem grayReg_of_single {s : State} (hd : s.cfg.isDual = false) (c : Nat) : s.grayReg c = 0 :=
  if_neg (Bool.eq_false_iff.1 hd)

/-! ## Distances between the copies -/

theorem usableCap_add_one {s : State} (hc : s.CapOk) : usableCap s.cap + 1 = s.cap :=
  Nat.sub_add_cancel (one_le_two.trans (two_le_cap hc))

/-- The slot behind the youngest item is the one that the next ENQ fills (R39, R141). -/
theorem occupiedSlot_occupancy {s : State} (hc : s.CapOk) (hr : s.InRange) :
    s.occupiedSlot s.occupancy = s.next s.write := by
  obtain ⟨hwrite, hread, _⟩ := hr
  rw [State.occupiedSlot, State.occupancy, positions_eq_ite hread hwrite, next_eq_mod hc]
  split
  · congr 1
    omega
  · rw [show s.read + (s.write + s.cap - s.read) + 1 = s.write + 1 + s.cap by omega,
      Nat.add_mod_right]

section Copies

variable {s : State} (hc : s.CapOk) (hv : s.ViewsOrdered)

include hc hv

/-- A view that says "not full" leaves room for one more item (R141). -/
theorem room_of_next_ne (hroom : s.next s.write ≠ s.readShadow) :
    s.ghost.nw + 1 ≤ s.ghost.nrc + usableCap s.cap := by
  obtain ⟨⟨_, _, _, _, _, hle⟩, hwrite, _, _, _, _, hshadow⟩ := hv
  rw [hwrite, next_mod hc, hshadow] at hroom
  refine Nat.lt_of_le_of_ne hle fun hfull => hroom ?_
  rw [hfull, Nat.add_assoc, usableCap_add_one hc, Nat.add_mod_right]

omit hc in
/-- A view that says "not empty" means that there is an item to take (R151). -/
theorem item_of_read_ne (hitem : s.read ≠ s.writeShadow) : s.ghost.nr + 1 ≤ s.ghost.nwc := by
  obtain ⟨⟨_, _, hle, _, _, _⟩, _, _, hshadow, hread, _, _⟩ := hv
  rw [hread, hshadow] at hitem
  exact Nat.lt_of_le_of_ne hle fun heq => hitem (heq ▸ rfl)

/-- Two counters between NRc and NW are as far apart as their registers. -/
theorem positions_of_counters {a b m n : Nat} (ha : a = m % s.cap) (hb : b = n % s.cap)
    (hm : s.ghost.nrc ≤ m) (hmn : m ≤ n) (hn : n ≤ s.ghost.nw) : s.positions a b = n - m := by
  obtain ⟨⟨_, _, _, _, _, hle⟩, _⟩ := hv
  have hcap := usableCap_add_one hc
  rw [ha, hb]
  exact positions_mod hmn (by omega)

/-- The true number of items is `NW - NR` (R168). -/
theorem occupancy_eq : s.occupancy = s.ghost.nw - s.ghost.nr := by
  have ⟨⟨_, _, _, _, _, _⟩, hwrite, _, _, hread, _, _⟩ := hv
  exact positions_of_counters hc hv hread hwrite (by omega) (by omega) le_rfl

/-- How far `wsync` is behind `write`. -/
theorem positions_wsync_write (hd : s.cfg.isDual = true) :
    s.positions s.wsync s.write = s.ghost.nw - s.ghost.nws := by
  obtain ⟨⟨_, _, _, _, _, _⟩, hwrite, hwsync, _⟩ := (viewsOrdered_of_dual hd).1 hv
  exact positions_of_counters hc hv hwsync hwrite (by omega) (by omega) le_rfl

/-- How far `rsync` is behind `read`. -/
theorem positions_rsync_read (hd : s.cfg.isDual = true) :
    s.positions s.rsync s.read = s.ghost.nr - s.ghost.nrs := by
  obtain ⟨⟨_, _, _, _, _, _⟩, _, _, _, hread, hrsync, _⟩ := (viewsOrdered_of_dual hd).1 hv
  exact positions_of_counters hc hv hrsync hread (by omega) (by omega) (by omega)

end Copies

/-! ## ENQ -/

section Enq

variable {s : State} (m : Memory) (hc : s.CapOk) (hr : s.InRange) (hv : s.ViewsOrdered)
  (hroom : s.next s.write ≠ s.readShadow)

include hc hv hroom

theorem viewsOrdered_publishWrite :
    (publishWrite { s with slots := m } (s.next s.write)).ViewsOrdered := by
  have hspace := room_of_next_ne hc hv hroom
  have hnext : ∀ {n}, s.write = n % s.cap → s.next s.write = (n + 1) % s.cap := fun h => by
    rw [h, next_mod hc]
  cases hd : s.cfg.isDual with
  | true =>
    obtain ⟨⟨hrcs, hrs, hrw, hwcs, hws, _⟩, hwrite, hrest⟩ := (viewsOrdered_of_dual hd).1 hv
    refine (viewsOrdered_of_dual (by exact hd)).2 ?_
    simp only [publishWrite_ghost, hd, Ghost.afterEnq, if_true]
    exact ⟨⟨hrcs, hrs, hrw, hwcs, Nat.le_succ_of_le hws, hspace⟩, hnext hwrite, hrest⟩
  | false =>
    obtain ⟨⟨hrcs, hrs, hrw, hwcs, hws, _⟩, hwrite, hwriteView, hwriteShadow, hrest⟩ :=
      (viewsOrdered_of_single hd).1 hv
    refine (viewsOrdered_of_single (by exact hd)).2 ?_
    simp only [publishWrite_ghost, hd, Ghost.afterEnq, Bool.false_eq_true, if_false]
    exact ⟨⟨hrcs, hrs, Nat.le_succ_of_le hrw, Nat.succ_le_succ hwcs, Nat.succ_le_succ hws, hspace⟩,
      hnext hwrite, hnext hwriteView, hnext hwriteShadow, hrest⟩

include hr

theorem occupancy_publishWrite :
    (publishWrite { s with slots := m } (s.next s.write)).occupancy = s.occupancy + 1 := by
  obtain ⟨hwrite, hread, _⟩ := hr
  have hlt : s.occupancy + 1 < s.cap := by
    have hspace := room_of_next_ne hc hv hroom
    have hcap := usableCap_add_one hc
    have ⟨⟨_, _, _, _, _, _⟩, _⟩ := hv
    rw [occupancy_eq hc hv]
    omega
  exact positions_next_right hc hread hwrite hlt

theorem occupiedWritten_enq (ho : s.OccupiedWritten) (v : Nat) :
    (publishWrite { s with slots := Memory.write s.slots (s.next s.write) v }
      (s.next s.write)).OccupiedWritten := by
  intro k hk
  rw [occupancy_publishWrite _ hc hr hv hroom] at hk
  change (Memory.read (Memory.write s.slots (s.next s.write) v) (s.occupiedSlot k)).isSome = true
  obtain hk | rfl := Nat.lt_succ_iff_lt_or_eq.1 hk
  · exact isSome_read_write (ho k hk) _ _
  · rw [occupiedSlot_occupancy hc hr, memory_read_write_same]
    rfl

theorem structureOk_publishWrite (hx : s.StructureOk) :
    (publishWrite { s with slots := m } (s.next s.write)).StructureOk := by
  have ⟨hwrite, _, _, _, _, hwsync⟩ := hr
  cases hd : s.cfg.isDual with
  | true =>
    obtain ⟨hw2r, hr2w⟩ := (structureOk_of_dual hd).1 hx
    refine (structureOk_of_dual (by exact hd)).2 ⟨?_, hr2w⟩
    have hlt : s.positions s.wsync s.write + 1 < s.cap := by
      have hspace := room_of_next_ne hc hv hroom
      have hcap := usableCap_add_one hc
      have ⟨⟨_, _, _, _, _, _⟩, _⟩ := hv
      rw [positions_wsync_write hc hv hd]
      omega
    have hpublish := crossingOk_publish hc hw2r hwrite hwsync hlt
    rwa [← grayReg_of_dual hd] at hpublish
  | false =>
    obtain ⟨hrdShadow, hwrShadow, hrsync, hwsync, hwgray, hrgray, hw2r, hr2w, _, hrgrayPrev⟩ :=
      (structureOk_of_single hd).1 hx
    refine (structureOk_of_single (by exact hd)).2 ?_
    exact ⟨hrdShadow, hwrShadow, hrsync, hwsync, grayReg_of_single hd _, hrgray, hw2r, hr2w, hwgray,
      hrgrayPrev⟩

end Enq

theorem instanceInv_of_enqCommit {s t : State} {item : Nat} (h : s.InstanceInv)
    (hroom : s.next s.write ≠ s.readShadow) (henq : enqCommit s (s.next s.write) item = .ok t) :
    t.InstanceInv := by
  obtain ⟨hc, hr, hs, hv, ho, hx⟩ := h
  have hrange := inRange_of_enqCommit hr henq
  obtain ⟨hlt, rfl⟩ := enqCommit_eq_ok.1 henq
  exact ⟨hc, hrange, slotsOk_write hs hlt item, viewsOrdered_publishWrite _ hc hv hroom,
    occupiedWritten_enq hc hr hv hroom ho _, structureOk_publishWrite _ hc hr hv hroom hx⟩

/-! ## DEQ -/

section Deq

variable {s : State} (m : Memory) (hc : s.CapOk) (hr : s.InRange) (hv : s.ViewsOrdered)
  (hitem : s.read ≠ s.writeShadow)

include hc hv hitem

theorem viewsOrdered_publishRead :
    (publishRead { s with slots := m } (s.next s.read)).ViewsOrdered := by
  have hone := item_of_read_ne hv hitem
  have hnext : ∀ {n}, s.read = n % s.cap → s.next s.read = (n + 1) % s.cap := fun h => by
    rw [h, next_mod hc]
  cases hd : s.cfg.isDual with
  | true =>
    obtain ⟨⟨hrcs, hrs, _, hwcs, hws, hwrc⟩, hwrite, hwsync, hwrShadow, hread, hrest⟩ :=
      (viewsOrdered_of_dual hd).1 hv
    refine (viewsOrdered_of_dual (by exact hd)).2 ?_
    simp only [publishRead_ghost, hd, Ghost.afterDeq, if_true]
    exact ⟨⟨hrcs, Nat.le_succ_of_le hrs, hone, hwcs, hws, hwrc⟩, hwrite, hwsync, hwrShadow,
      hnext hread, hrest⟩
  | false =>
    obtain ⟨⟨hrcs, hrs, _, hwcs, hws, hwrc⟩, hwrite, hwriteView, hwriteShadow, hread, hreadView,
      hreadShadow⟩ := (viewsOrdered_of_single hd).1 hv
    refine (viewsOrdered_of_single (by exact hd)).2 ?_
    simp only [publishRead_ghost, hd, Ghost.afterDeq, Bool.false_eq_true, if_false]
    refine ⟨⟨Nat.succ_le_succ hrcs, Nat.succ_le_succ hrs, hone, hwcs, hws, ?_⟩, hwrite, hwriteView,
      hwriteShadow, hnext hread, hnext hreadView, hnext hreadShadow⟩
    exact hwrc.trans (Nat.add_le_add_right (Nat.le_succ _) _)

include hr

theorem occupancy_publishRead :
    (publishRead { s with slots := m } (s.next s.read)).occupancy = s.occupancy - 1 ∧
      0 < s.occupancy := by
  obtain ⟨hwrite, hread, _⟩ := hr
  have hpos : 0 < s.occupancy := by
    have hone := item_of_read_ne hv hitem
    have ⟨⟨_, _, _, _, _, _⟩, _⟩ := hv
    rw [occupancy_eq hc hv]
    omega
  have hne : s.read ≠ s.write := fun heq => by
    rw [State.occupancy, heq, positions_self hwrite] at hpos
    exact Nat.lt_irrefl 0 hpos
  exact ⟨positions_next_left hc hread hwrite hne, hpos⟩

theorem occupiedWritten_deq (ho : s.OccupiedWritten)
    (hm : ∀ a, (Memory.read s.slots a).isSome = true → (Memory.read m a).isSome = true) :
    (publishRead { s with slots := m } (s.next s.read)).OccupiedWritten := by
  intro k hk
  obtain ⟨hocc, _⟩ := occupancy_publishRead m hc hr hv hitem
  rw [hocc] at hk
  have hslot : (s.next s.read + k + 1) % s.cap = s.occupiedSlot (k + 1) := by
    rw [State.occupiedSlot, next_eq_mod hc, Nat.add_assoc, Nat.mod_add_mod]
    congr 1
    omega
  change (Memory.read m ((s.next s.read + k + 1) % s.cap)).isSome = true
  rw [hslot]
  exact hm _ (ho (k + 1) (by omega))

theorem structureOk_publishRead (hx : s.StructureOk) :
    (publishRead { s with slots := m } (s.next s.read)).StructureOk := by
  have ⟨_, hread, _, _, hrsync, _⟩ := hr
  cases hd : s.cfg.isDual with
  | true =>
    obtain ⟨hw2r, hr2w⟩ := (structureOk_of_dual hd).1 hx
    refine (structureOk_of_dual (by exact hd)).2 ⟨hw2r, ?_⟩
    have hlt : s.positions s.rsync s.read + 1 < s.cap := by
      have hone := item_of_read_ne hv hitem
      have hcap := usableCap_add_one hc
      have ⟨⟨_, _, _, _, _, _⟩, _⟩ := hv
      rw [positions_rsync_read hc hv hd]
      omega
    have hpublish := crossingOk_publish hc hr2w hread hrsync hlt
    rwa [← grayReg_of_dual hd] at hpublish
  | false =>
    obtain ⟨hrdShadow, hwrShadow, hrsync, hwsync, hwgray, hrgray, hw2r, hr2w, hwgrayPrev, _⟩ :=
      (structureOk_of_single hd).1 hx
    refine (structureOk_of_single (by exact hd)).2 ?_
    exact ⟨hrdShadow, hwrShadow, hrsync, hwsync, hwgray, grayReg_of_single hd _, hw2r, hr2w,
      hwgrayPrev, hrgray⟩

end Deq

theorem instanceInv_of_deqCommit {s t : State} {item : Nat} (h : s.InstanceInv)
    (hitem : s.read ≠ s.writeShadow) (hdeq : deqCommit s = .ok (t, item)) : t.InstanceInv := by
  obtain ⟨hc, hr, hs, hv, ho, hx⟩ := h
  have hrange := inRange_of_deqCommit hc hr hdeq
  obtain ⟨m, hm, rfl⟩ := deqCommit_state hdeq
  have hslots : ({ s with slots := m } : State).SlotsOk := by
    obtain rfl | ⟨hlt, rfl⟩ := hm
    · exact hs
    · exact slotsOk_write hs hlt zeroDatum
  have hwritten : ∀ a, (Memory.read s.slots a).isSome = true → (Memory.read m a).isSome = true := by
    obtain rfl | ⟨_, rfl⟩ := hm
    · exact fun _ => id
    · exact fun _ ha => isSome_read_write ha _ _
  exact ⟨hc, hrange, hslots, viewsOrdered_publishRead m hc hv hitem,
    occupiedWritten_deq m hc hr hv hitem ho hwritten, structureOk_publishRead m hc hr hv hitem hx⟩

/-- A DEQ that took an item leaves room for the ENQ of the same edge (R74). -/
theorem next_write_ne_of_deqCommit {s t : State} {out : Nat} (hc : s.CapOk) (hr : s.InRange)
    (hd : s.cfg.isDual = false) (hitem : s.read ≠ s.write) (hdeq : deqCommit s = .ok (t, out)) :
    t.next t.write ≠ t.readShadow ∧ t.next t.write = s.next s.write := by
  obtain ⟨hwrite, hread, _⟩ := hr
  obtain ⟨m, _, rfl⟩ := deqCommit_state hdeq
  refine ⟨?_, rfl⟩
  have hshadow : (publishRead { s with slots := m } (s.next s.read)).readShadow = s.next s.read :=
    if_neg (Bool.eq_false_iff.1 hd)
  rw [hshadow]
  change s.next s.write ≠ s.next s.read
  rw [next_eq_ite hc hwrite, next_eq_ite hc hread]
  split_ifs <;> omega

/-! ## The crossing -/

section Sync

variable {s : State} (h : s.InstanceInv) (hd : s.cfg.isDual = true)

include h hd

theorem loadReadShadow_instanceInv :
    ({ s with
      rdShadow := s.rsync
      ghost := { s.ghost with nrc := s.ghost.nrs } } : State).InstanceInv := by
  obtain ⟨hc, hr, hs, hv, ho, hx⟩ := h
  obtain ⟨⟨hrcs, hrs, hrw, hwcs, hws, hwrc⟩, hwrite, hwsync, hwrShadow, hread, hrsync, _⟩ :=
    (viewsOrdered_of_dual hd).1 hv
  refine ⟨hc, (Move.loadReadShadow s hd).inRange hc hr, hs, ?_, ho, ?_⟩
  · refine (viewsOrdered_of_dual (by exact hd)).2 ?_
    exact ⟨⟨le_rfl, hrs, hrw, hwcs, hws, hwrc.trans (Nat.add_le_add_right hrcs _)⟩, hwrite, hwsync,
      hwrShadow, hread, hrsync, hrsync⟩
  · exact (structureOk_of_dual (by exact hd)).2 ((structureOk_of_dual hd).1 hx)

theorem loadWriteShadow_instanceInv :
    ({ s with
      wrShadow := s.wsync
      ghost := { s.ghost with nwc := s.ghost.nws } } : State).InstanceInv := by
  obtain ⟨hc, hr, hs, hv, ho, hx⟩ := h
  obtain ⟨⟨hrcs, hrs, hrw, hwcs, hws, hwrc⟩, hwrite, hwsync, _, hrest⟩ :=
    (viewsOrdered_of_dual hd).1 hv
  refine ⟨hc, (Move.loadWriteShadow s hd).inRange hc hr, hs, ?_, ho, ?_⟩
  · refine (viewsOrdered_of_dual (by exact hd)).2 ?_
    exact ⟨⟨hrcs, hrs, hrw.trans hwcs, le_rfl, hws, hwrc⟩, hwrite, hwsync, hwsync, hrest⟩
  · exact (structureOk_of_dual (by exact hd)).2 ((structureOk_of_dual hd).1 hx)

/-- `wsync` may move forward with its ghost up to `write` when the chain moves with it. -/
theorem moveWsync_instanceInv {v d prev : Nat} {chain : List Nat}
    (hval : v = (s.ghost.nws + d) % s.cap) (hle : d ≤ s.ghost.nw - s.ghost.nws)
    (hcross : s.CrossingOk s.write v s.wgray prev chain) :
    ({ s with
      w2r := chain
      wsync := v
      wgrayPrev := prev
      ghost := { s.ghost with nws := s.ghost.nws + d } } : State).InstanceInv := by
  obtain ⟨hc, hr, hs, hv, ho, hx⟩ := h
  obtain ⟨⟨hrcs, hrs, hrw, hwcs, hws, hwrc⟩, hwrite, _, hrest⟩ := (viewsOrdered_of_dual hd).1 hv
  obtain ⟨hw, hrd, hrds, hwrs, hrsy, _⟩ := hr
  have hvlt : v < s.cap := hval ▸ Nat.mod_lt _ (Nat.zero_lt_of_lt hw)
  refine ⟨hc, ⟨hw, hrd, hrds, hwrs, hrsy, hvlt⟩, hs, ?_, ho, ?_⟩
  · refine (viewsOrdered_of_dual (by exact hd)).2 ?_
    refine ⟨⟨hrcs, hrs, hrw, Nat.le_add_right_of_le hwcs, ?_, hwrc⟩, hwrite, hval, hrest⟩
    change s.ghost.nws + d ≤ s.ghost.nw
    omega
  · exact (structureOk_of_dual (by exact hd)).2 ⟨hcross, ((structureOk_of_dual hd).1 hx).2⟩

/-- `rsync` may move forward with its ghost up to `read` when the chain moves with it. -/
theorem moveRsync_instanceInv {v d prev : Nat} {chain : List Nat}
    (hval : v = (s.ghost.nrs + d) % s.cap) (hle : d ≤ s.ghost.nr - s.ghost.nrs)
    (hcross : s.CrossingOk s.read v s.rgray prev chain) :
    ({ s with
      r2w := chain
      rsync := v
      rgrayPrev := prev
      ghost := { s.ghost with nrs := s.ghost.nrs + d } } : State).InstanceInv := by
  obtain ⟨hc, hr, hs, hv, ho, hx⟩ := h
  obtain ⟨⟨hrcs, hrs, hrw, hwcs, hws, hwrc⟩, hwrite, hwsync, hwrShadow, hread, _, hrdShadow⟩ :=
    (viewsOrdered_of_dual hd).1 hv
  obtain ⟨hw, hrd, hrds, hwrs, _, hwsy⟩ := hr
  have hvlt : v < s.cap := hval ▸ Nat.mod_lt _ (Nat.zero_lt_of_lt hw)
  refine ⟨hc, ⟨hw, hrd, hrds, hwrs, hvlt, hwsy⟩, hs, ?_, ho, ?_⟩
  · refine (viewsOrdered_of_dual (by exact hd)).2 ?_
    refine ⟨⟨Nat.le_add_right_of_le hrcs, ?_, hrw, hwcs, hws, hwrc⟩, hwrite, hwsync, hwrShadow,
      hread, hval, hrdShadow⟩
    change s.ghost.nrs + d ≤ s.ghost.nr
    omega
  · exact (structureOk_of_dual (by exact hd)).2 ⟨((structureOk_of_dual hd).1 hx).1, hcross⟩

end Sync

/-- Distinct registers of ordered counters: the counters are distinct. -/
theorem one_le_sub_of_mod_ne {m n c : Nat} (hmn : m ≤ n) (hne : m % c ≠ n % c) : 1 ≤ n - m :=
  Nat.sub_pos_of_lt (Nat.lt_of_le_of_ne hmn fun heq => hne (heq ▸ rfl))

/-! ## The machine -/

theorem Move.instanceInv {s t : State} (hmove : Move s t) (hcfg : s.cfg.Ok) (h : s.InstanceInv) :
    t.InstanceInv := by
  have ⟨hc, hr, hs, hv, ho, hx⟩ := h
  have ⟨hwrite, hread, _, _, hrsync, hwsync⟩ := hr
  have hn := nsync_pos hcfg
  cases hmove with
  | present | error | openWindow => exact h
  | loadReadShadow hd => exact loadReadShadow_instanceInv h hd
  | loadWriteShadow hd => exact loadWriteShadow_instanceInv h hd
  | enq hroom henq => exact instanceInv_of_enqCommit h hroom henq
  | deq hitem hdeq => exact instanceInv_of_deqCommit h hitem hdeq
  | deqEnq hd hitem hroom hdeq henq =>
    have hshadow : s.writeShadow = s.write := if_neg (Bool.eq_false_iff.1 hd)
    obtain ⟨hroom, hnext⟩ := next_write_ne_of_deqCommit hc hr hd hitem hdeq
    exact instanceInv_of_enqCommit (instanceInv_of_deqCommit h (hshadow ▸ hitem) hdeq) hroom
      (hnext ▸ henq)
  | reset => exact applyReset_instanceInv hcfg hc
  | flush => exact applyFlush_instanceInv hcfg hc hs
  | syncW2r hd hne =>
    obtain ⟨⟨_, _, _, _, hws, _⟩, hw, hwview, _⟩ := (viewsOrdered_of_dual hd).1 hv
    refine moveWsync_instanceInv h hd (by rw [hwview, next_mod hc]) ?_
      (crossingOk_advance hc hn ((structureOk_of_dual hd).1 hx).1 hwrite hwsync hne)
    exact one_le_sub_of_mod_ne hws (hwview ▸ hw ▸ hne)
  | syncR2w hd hne =>
    obtain ⟨⟨_, hrs, _, _, _, _⟩, _, _, _, hrd, hrview, _⟩ := (viewsOrdered_of_dual hd).1 hv
    refine moveRsync_instanceInv h hd (by rw [hrview, next_mod hc]) ?_
      (crossingOk_advance hc hn ((structureOk_of_dual hd).1 hx).2 hread hrsync hne)
    exact one_le_sub_of_mod_ne hrs (hrview ▸ hrd ▸ hne)
  | @rclkEdge hd chain capture hchain =>
    obtain ⟨hcross, hle⟩ :=
      crossingOk_shift hc hn ((structureOk_of_dual hd).1 hx).1 hwrite hwsync capture
    rw [← hchain] at hcross hle
    rw [len_eq_positions hc _ hwsync]
    refine moveWsync_instanceInv h hd ?_ (hle.trans_eq (positions_wsync_write hc hv hd)) hcross
    obtain ⟨_, _, hwview, _⟩ := (viewsOrdered_of_dual hd).1 hv
    rw [hwview, add_positions_mod (chainOutput_lt hc _)]
  | @wclkEdge hd chain capture hchain =>
    obtain ⟨hcross, hle⟩ :=
      crossingOk_shift hc hn ((structureOk_of_dual hd).1 hx).2 hread hrsync capture
    rw [← hchain] at hcross hle
    rw [len_eq_positions hc _ hrsync]
    refine moveRsync_instanceInv h hd ?_ (hle.trans_eq (positions_rsync_read hc hv hd)) hcross
    obtain ⟨_, _, _, _, _, hrview, _⟩ := (viewsOrdered_of_dual hd).1 hv
    rw [hrview, add_positions_mod (chainOutput_lt hc _)]

theorem Move.cfg {s t : State} (h : Move s t) : t.cfg = s.cfg := by
  cases h with
  | enq _ henq => exact (SameInstance.of_enqCommit henq).cfg
  | deq _ hdeq => exact (SameInstance.of_deqCommit hdeq).cfg
  | deqEnq _ _ _ hdeq henq =>
    exact (SameInstance.of_enqCommit henq).cfg.trans (SameInstance.of_deqCommit hdeq).cfg
  | _ => rfl

theorem Constructs.inv {s t : State} (h : Constructs s t) (hcfg : s.cfg.Ok) : t.Inv := by
  have hc := h.capOk hcfg
  obtain ⟨_, _, _, _, _, rfl⟩ := h
  exact ⟨hcfg, fun _ => applyReset_instanceInv hcfg hc⟩

/-- Settles O50: every move keeps the invariant of the instance, and construction makes it. -/
theorem stepKeepsTheInvariant : Obligations.StepKeepsTheInvariant := by
  intro s t ⟨hcfg, hinst⟩ h
  cases hb : s.built with
  | true =>
    obtain ⟨hcfg', hinv⟩ := (step_moves hb h).keep (P := fun u => u.cfg.Ok ∧ u.InstanceInv)
      (fun _ _ hmove ⟨hcfg, hinv⟩ => ⟨hmove.cfg ▸ hcfg, hmove.instanceInv hcfg hinv⟩)
      ⟨hcfg, hinst hb⟩
    exact ⟨hcfg', fun _ => hinv⟩
  | false =>
    obtain ⟨_, hmade⟩ := step_constructs hb h
    exact hmade.inv hcfg

/-- Settles O49: the state is the one that CONSTRUCT makes, and construction makes sound states. -/
theorem resetStateIsSound : Obligations.ResetStateIsSound := by
  have hmade : exec (.construct 3) { State.reset with built := false } = .next State.reset := rfl
  have hcfg : Params.default.Ok := by decide
  exact ⟨(exec_constructs rfl hmade).inv hcfg, rfl, hmade⟩

end Sys2Proof.Proofs
end

section
/-!
PROOFS. The stores of an accepted ENQ and of a successful DEQ as functions of the state (42_enqueue
R141, 43_dequeue R151), for the proofs that compare several of them.
-/

namespace Sys2Proof.Proofs

open Sys2Proof Sys2Proof.Machine

/-- The state that the stores of an accepted ENQ leave (R141, R61). -/
def enqueued (item : Nat) (s : State) : State :=
  publishWrite
    { s with slots := Memory.write s.slots (s.next s.write) (dataField s.cfg.dw item) }
    (s.next s.write)

/-- The slot array after the clearing store of a successful DEQ, if it makes one (R154). -/
def takenSlots (s : State) : Memory :=
  if s.cfg.clearOnRead then Memory.write s.slots (s.next s.read) (dataField s.cfg.dw zeroDatum)
  else s.slots

/-- The state that the accesses of a successful DEQ leave (R151, R63). -/
def dequeued (s : State) : State := publishRead { s with slots := takenSlots s } (s.next s.read)

theorem enqCommit_next_eq_ok {s t : State} {item : Nat} :
    enqCommit s (s.next s.write) item = .ok t ↔ s.next s.write < s.cap ∧ t = enqueued item s :=
  enqCommit_eq_ok

theorem clearSlot_next {s : State} (hlt : s.next s.read < s.cap) :
    clearSlot s (s.next s.read) = .ok { s with slots := takenSlots s } := by
  unfold clearSlot takenSlots
  split
  · exact slotWrite_eq_ok.2 ⟨hlt, rfl⟩
  · rfl

theorem deqCommit_eq_ok_iff {s t : State} {item : Nat} :
    deqCommit s = .ok (t, item) ↔
      s.next s.read < s.cap ∧ Memory.read s.slots (s.next s.read) = some item ∧ t = dequeued s := by
  constructor
  · intro h
    obtain ⟨hlt, hread, u, hclear, rfl⟩ := deqCommit_eq_ok h
    cases (clearSlot_next hlt).symm.trans hclear
    exact ⟨hlt, hread, rfl⟩
  · rintro ⟨hlt, hread, rfl⟩
    simp only [deqCommit, slotRead_eq_ok.2 ⟨hlt, hread⟩, clearSlot_next hlt]
    rfl

/-- DEQ leaves every slot alone but the one that it takes. -/
theorem read_takenSlots {s : State} {a : Nat} (ha : a ≠ s.next s.read) :
    Memory.read (takenSlots s) a = Memory.read s.slots a := by
  unfold takenSlots
  split
  · exact memory_read_write_other _ _ _ _ ha
  · rfl

/-- Writes at distinct indices commute: each finds its own place among the listed indices. -/
theorem memory_write_comm {i j : Nat} (hne : i ≠ j) (u v : Nat) (m : Memory) :
    Memory.write (Memory.write m i u) j v = Memory.write (Memory.write m j v) i u := by
  induction m with
  | nil => grind [Memory.write]
  | cons c rest ih => grind [Memory.write]

/-- The stores of an ENQ and of a DEQ commute when they go to different slots. -/
theorem enqueued_dequeued {s : State} (item : Nat) (hne : s.next s.read ≠ s.next s.write) :
    enqueued item (dequeued s) = dequeued (enqueued item s) := by
  have hslots : (enqueued item (dequeued s)).slots = (dequeued (enqueued item s)).slots := by
    change Memory.write (takenSlots s) (s.next s.write) _ = takenSlots (enqueued item s)
    unfold takenSlots
    split
    · exact (memory_write_comm hne ..).trans (if_pos ‹_›).symm
    · exact (if_neg ‹_›).symm
  have hghost : (enqueued item (dequeued s)).ghost = (dequeued (enqueued item s)).ghost := by
    change (s.ghost.afterDeq s.cfg.isDual).afterEnq s.cfg.isDual =
      (s.ghost.afterEnq s.cfg.isDual).afterDeq s.cfg.isDual
    cases s.cfg.isDual <;> rfl
  calc enqueued item (dequeued s)
      = { enqueued item (dequeued s) with
          slots := (dequeued (enqueued item s)).slots
          ghost := (dequeued (enqueued item s)).ghost } := by rw [← hslots, ← hghost]
    _ = dequeued (enqueued item s) := rfl

end Sys2Proof.Proofs
end

section
/-!
PROOFS. The instance as a queue (10_state R39, 20_memory R71): what each command does to the queue
of occupied slots, and first-in-first-out order over a run (43_dequeue R158).
-/

namespace Sys2Proof.Proofs

open Sys2Proof Sys2Proof.Machine

/-! ## The occupied slots -/

section Slots

variable {s : State}

/-- Slots at different places behind `read` are different slots. -/
theorem occupiedSlot_ne (hr : s.InRange) {j k : Nat} (hj : j + 1 < s.cap) (hk : k + 1 < s.cap)
    (hne : j ≠ k) : s.occupiedSlot j ≠ s.occupiedSlot k := by
  obtain ⟨_, hread, _⟩ := hr
  intro heq
  have hplace := congrArg (s.positions s.read) heq
  simp only [State.occupiedSlot, Nat.add_assoc] at hplace
  rw [positions_add_mod hread hj, positions_add_mod hread hk] at hplace
  exact hne (Nat.succ.inj hplace)

/-- The oldest item is in the slot that the next DEQ takes (R39, R151). -/
theorem occupiedSlot_zero (hc : s.CapOk) : s.occupiedSlot 0 = s.next s.read :=
  (next_eq_mod hc s.read).symm

/-- A DEQ moves every other item one place forward. -/
theorem occupiedSlot_dequeued (hc : s.CapOk) (k : Nat) :
    (dequeued s).occupiedSlot k = s.occupiedSlot (k + 1) := by
  change (s.next s.read + k + 1) % s.cap = (s.read + (k + 1) + 1) % s.cap
  rw [next_eq_mod hc, Nat.add_assoc, Nat.mod_add_mod]
  congr 1
  omega

theorem occupancy_lt_cap (hr : s.InRange) : s.occupancy < s.cap :=
  Nat.mod_lt _ (Nat.zero_lt_of_lt hr.1)

end Slots

/-! ## The queue after each operation -/

@[simp] theorem queue_raise (k : ErrorKind) (a : Agent) (op : Nat) (s : State) :
    (raise k a op s).queue = s.queue := rfl

@[simp] theorem queue_reloadReadShadow (s : State) (c : Nat) :
    (reloadReadShadow s c).queue = s.queue := by
  obtain ⟨_, h⟩ | ⟨_, h⟩ := reloadReadShadow_cases s c
  · rw [h]; rfl
  · rw [h]

@[simp] theorem queue_reloadWriteShadow (s : State) : (reloadWriteShadow s).queue = s.queue := by
  obtain ⟨_, h⟩ | ⟨_, h⟩ := reloadWriteShadow_cases s
  · rw [h]; rfl
  · rw [h]

/-- An accepted ENQ fills the slot behind the youngest item and no occupied one. -/
theorem queue_enqueued {s : State} (h : s.InstanceInv) (hroom : s.next s.write ≠ s.readShadow)
    (item : Nat) : (enqueued item s).queue = s.queue ++ [item % 2 ^ s.cfg.dw] := by
  obtain ⟨hc, hr, _, hv, _, _⟩ := h
  have hocc : (enqueued item s).occupancy = s.occupancy + 1 :=
    occupancy_publishWrite _ hc hr hv hroom
  have hlt : s.occupancy + 1 < s.cap :=
    hocc ▸ Nat.mod_lt _ (Nat.zero_lt_of_lt (next_lt hc s.write))
  have hslot := occupiedSlot_occupancy hc hr
  have hold : ∀ k ∈ List.range s.occupancy,
      Memory.read (enqueued item s).slots (s.occupiedSlot k) =
        Memory.read s.slots (s.occupiedSlot k) := fun k hk => by
    have hk := List.mem_range.1 hk
    exact memory_read_write_other _ _ _ _ (hslot ▸ occupiedSlot_ne hr (by omega) hlt (by omega))
  have hnew : Memory.read (enqueued item s).slots (s.occupiedSlot s.occupancy) =
      some (item % 2 ^ s.cfg.dw) := by
    rw [hslot]
    exact memory_read_write_same _ _ _
  have hqueue : (enqueued item s).queue = (List.range (s.occupancy + 1)).map fun k =>
      (Memory.read (enqueued item s).slots (s.occupiedSlot k)).getD zeroDatum := by
    rw [State.queue, hocc]
    rfl
  rw [hqueue, List.range_succ, List.map_append, List.map_singleton, hnew, Option.getD_some]
  congr 1
  exact List.map_congr_left fun k hk => by rw [hold k hk]

/-- A successful DEQ takes the oldest item and leaves the slots of the others alone. -/
theorem queue_eq_cons_dequeued {s : State} (h : s.InstanceInv) (hitem : s.read ≠ s.writeShadow)
    {v : Nat} (hv : Memory.read s.slots (s.next s.read) = some v) :
    s.queue = v :: (dequeued s).queue := by
  obtain ⟨hc, hr, _, hviews, _, _⟩ := h
  have hocc : s.occupancy = (dequeued s).occupancy + 1 := by
    obtain ⟨htaken, hpos⟩ := occupancy_publishRead (takenSlots s) hc hr hviews hitem
    exact (Nat.sub_eq_iff_eq_add hpos).1 htaken.symm
  have hlt := occupancy_lt_cap hr
  have hrest : ∀ k ∈ List.range (dequeued s).occupancy,
      Memory.read s.slots (s.occupiedSlot (k + 1)) =
        Memory.read (dequeued s).slots ((dequeued s).occupiedSlot k) := fun k hk => by
    have hk := List.mem_range.1 hk
    rw [occupiedSlot_dequeued hc]
    refine (read_takenSlots ?_).symm
    rw [← occupiedSlot_zero hc]
    exact occupiedSlot_ne hr (by omega) (by omega) (by omega)
  rw [State.queue, hocc, List.range_succ_eq_map, List.map_cons, List.map_map, occupiedSlot_zero hc,
    hv]
  congr 1
  exact List.map_congr_left fun k hk => congrArg (Option.getD · zeroDatum) (hrest k hk)

/-- The queue of a state as construction, RESET and FLUSH_END leave it. -/
theorem FreshAt.queue {s : State} {n : Nat} (h : FreshAt s n) (hc : s.CapOk) :
    s.queue = (List.range n).map fun k => (Memory.read s.slots (1 + k)).getD zeroDatum := by
  rw [State.queue, h.occupancy hc]
  exact List.map_congr_left fun k hk => by rw [h.occupiedSlot hc (List.mem_range.1 hk)]

theorem queue_applyReset {s : State} {cap : Nat} {init : List Nat}
    (hc : (applyReset s cap init).CapOk) :
    (applyReset s cap init).queue = init.map (· % 2 ^ s.cfg.dw) := by
  have hfresh : FreshAt (applyReset s cap init) init.length := freshAt_applyReset (init_fits hc)
  rw [hfresh.queue hc]
  refine List.ext_getElem (by simp) fun k hk _ => ?_
  have hk : k < init.length := by simpa using hk
  simp [initialSlots_read, List.getElem?_eq_getElem hk, dataField]

theorem queue_applyFlush {s : State} (hc : s.CapOk) : (applyFlush s).queue = [] :=
  (freshAt_applyFlush s).queue hc

/-! ## The queue after each command and event -/

theorem Moves.instanceInv {s t : State} (h : Moves s t) (hcfg : s.cfg.Ok) (hs : s.InstanceInv) :
    t.cfg.Ok ∧ t.InstanceInv :=
  h.keep (P := fun u => u.cfg.Ok ∧ u.InstanceInv)
    (fun _ _ hmove ⟨hcfg, hinv⟩ => ⟨hmove.cfg ▸ hcfg, hmove.instanceInv hcfg hinv⟩) ⟨hcfg, hs⟩

theorem execEnq_queue {s t : State} {item : Nat} (hcfg : s.cfg.Ok) (hs : s.InstanceInv)
    (h : execEnq item s = .next t) :
    t.queue = s.queue ++ (if t.out.pOk then [item % 2 ^ s.cfg.dw] else []) := by
  obtain ⟨_, ⟨_, rfl⟩ | ⟨_, h⟩⟩ := portCommand_next h
  · exact (List.append_nil _).symm
  obtain ⟨_, hbody⟩ | ⟨e, _, hbody⟩ | ⟨hroom, u, hu, hbody⟩ := enqBody_cases item s
  · cases hbody.symm.trans h
    exact (queue_reloadReadShadow s _).trans (List.append_nil _).symm
  · cases hbody.symm.trans h
    exact (List.append_nil _).symm
  · cases hbody.symm.trans h
    obtain ⟨_, hinv⟩ := (reloadReadShadow_moves s (s.next s.write)).instanceInv hcfg hs
    have hnext := reloadReadShadow_next_write s (s.next s.write)
    have hqueue := queue_reloadReadShadow s (s.next s.write)
    have hdw := (SameInstance.reloadReadShadow s (s.next s.write)).cfg
    generalize reloadReadShadow s (s.next s.write) = loaded at *
    rw [← hnext] at hroom hu
    obtain ⟨_, rfl⟩ := enqCommit_next_eq_ok.1 hu
    have hpush := queue_enqueued hinv hroom item
    rwa [hqueue, hdw] at hpush

theorem execDeq_queue {s t : State} (hcfg : s.cfg.Ok) (hs : s.InstanceInv)
    (h : execDeq s = .next t) :
    s.queue = (if t.out.cOk then [t.out.cData] else []) ++ t.queue := by
  obtain ⟨_, ⟨_, rfl⟩ | ⟨_, h⟩⟩ := portCommand_next h
  · rfl
  obtain ⟨_, hbody⟩ | ⟨e, _, hbody⟩ | ⟨hitem, u, v, hu, hbody⟩ := deqBody_cases s
  · cases hbody.symm.trans h
    exact (queue_reloadWriteShadow s).symm
  · cases hbody.symm.trans h
    rfl
  · cases hbody.symm.trans h
    obtain ⟨_, hinv⟩ := (reloadWriteShadow_moves s).instanceInv hcfg hs
    obtain ⟨_, hread, rfl⟩ := deqCommit_eq_ok_iff.1 hu
    exact (queue_reloadWriteShadow s).symm.trans (queue_eq_cons_dequeued hinv hitem hread)

theorem execReset_queue {s t : State} (hc : s.CapOk) (h : execReset s = .next t) :
    t.queue = s.init.map (· % 2 ^ s.cfg.dw) := by
  obtain ⟨_, h⟩ := onInstance_next h
  cases h
  exact queue_applyReset hc

theorem execFlushEnd_queue {s t : State} (hc : s.CapOk) (h : execFlushEnd s = .next t) :
    t.queue = if s.flushing then [] else s.queue := by
  obtain ⟨_, h⟩ := onInstance_next h
  split at h
  · next hf =>
    cases h
    rw [queue_applyFlush hc, if_pos hf]
  · next hf =>
    cases h
    rw [queue_raise, if_neg hf]

/-- The crossing agents move a view, which is no part of the queue (R180, R181). -/
theorem execSync_queue {s t : State} {i : Instr} (hi : i = .syncW2r ∨ i = .syncR2w)
    (h : exec i s = .next t) : t.queue = s.queue := by
  obtain rfl | rfl := hi
  all_goals
    obtain ⟨_, h⟩ := onInstance_next h
    split at h <;> cases h
    rfl

/-- Only construction, RESET, FLUSH_END, ENQ and DEQ change the queue. -/
theorem exec_queue_of_no_store {s t : State} {i : Instr} (hset : setsCursors i = false)
    (henq : ∀ x, i ≠ .enq x) (hdeq : i ≠ .deq) (h : exec i s = .next t) : t.queue = s.queue := by
  by_cases hp : portOf i = some .producer ∨ portOf i = some .consumer
  · rw [exec_port_frame hp henq hdeq h]
    rfl
  cases i with
  | hnop | flushBegin =>
    obtain ⟨_, h⟩ := onInstance_next h
    cases h
    rfl
  | syncW2r => exact execSync_queue (.inl rfl) h
  | syncR2w => exact execSync_queue (.inr rfl) h
  | flushEnd | reset | construct | constructFrom => cases hset
  | _ => simp [portOf] at hp

theorem rclkEdge_queue {s t : State} {c : Nat} (h : rclkEdge c s = .next t) :
    t.queue = s.queue := by
  obtain ⟨_, h⟩ := onInstance_next h
  split at h <;> cases h <;> rfl

theorem wclkEdge_queue {s t : State} {c : Nat} (h : wclkEdge c s = .next t) :
    t.queue = s.queue := by
  obtain ⟨_, h⟩ := onInstance_next h
  split at h <;> cases h <;> rfl

/-- Settles O56: the queue after each command and each clock edge. -/
theorem commandsRefineAQueue : Obligations.CommandsRefineAQueue := by
  intro s t ⟨hcfg, hinst⟩ hb
  have hs := hinst hb
  have ⟨hc, _⟩ := hs
  refine ⟨fun _ => execEnq_queue hcfg hs, execDeq_queue hcfg hs, execReset_queue hc,
    execFlushEnd_queue hc, fun _ => exec_queue_of_no_store, fun _ h => ?_⟩
  exact h.elim rclkEdge_queue wclkEdge_queue

/-! ## Runs -/

/-- One command: what was queued and is accepted is what is returned and queued. An error
accepts nothing and returns nothing, so this needs no premise on `fault`. -/
theorem exec_queue_order {s t : State} {i : Instr} (hinv : s.Inv) (hb : s.built = true)
    (hset : setsCursors i = false) (h : exec i s = .next t) :
    s.queue ++ acceptedItem i t = returnedItem i t ++ t.queue := by
  obtain ⟨hpush, hpop, _, _, hkeep, _⟩ := commandsRefineAQueue s t hinv hb
  have hcfg := (exec_keepsInstance hb i t h).cfg
  cases i with
  | enq item => simpa [acceptedItem, returnedItem, hcfg] using (hpush item h).symm
  | deq => simpa [acceptedItem, returnedItem] using hpop h
  | _ => simpa [acceptedItem, returnedItem] using (hkeep _ hset nofun nofun h).symm

theorem exec_keeps_inv {s t : State} {i : Instr} (hinv : s.Inv) (hb : s.built = true)
    (h : exec i s = .next t) : t.Inv ∧ t.built = true := by
  obtain ⟨hcfg, hinst⟩ := hinv
  obtain ⟨hcfg', hinv'⟩ := (exec_moves hb h).instanceInv hcfg (hinst hb)
  exact ⟨⟨hcfg', fun _ => hinv'⟩, (exec_keepsInstance hb i t h).built.trans hb⟩

theorem runLog_cons_eq_some {i : Instr} {rest : List Instr} {s u : State} {ins outs : List Nat}
    (h : runLog (i :: rest) s = some (ins, outs, u)) :
    ∃ t ins' outs', exec i s = .next t ∧ runLog rest t = some (ins', outs', u) ∧
      ins = acceptedItem i t ++ ins' ∧ outs = returnedItem i t ++ outs' := by
  simp only [runLog] at h
  split at h
  · next t ht =>
    split at h
    · next ins' outs' _ hrest =>
      cases h
      exact ⟨t, ins', outs', ht, hrest, rfl, rfl⟩
    · cases h
  · cases h
  · cases h

/-- The order of the items over a run, whatever errors it records. -/
theorem runLog_queue_order : ∀ {is : List Instr} {s u : State} {ins outs : List Nat}, s.Inv →
    s.built = true → (∀ i ∈ is, setsCursors i = false) → runLog is s = some (ins, outs, u) →
    s.queue ++ ins = outs ++ u.queue
  | [], s, u, ins, outs, _, _, _, h => by
    cases h
    exact List.append_nil _
  | i :: rest, s, u, _, _, hinv, hb, hset, h => by
    obtain ⟨t, ins, outs, hexec, hrun, rfl, rfl⟩ := runLog_cons_eq_some h
    obtain ⟨hi, hrest⟩ := List.forall_mem_cons.1 hset
    obtain ⟨hinv', hb'⟩ := exec_keeps_inv hinv hb hexec
    calc s.queue ++ (acceptedItem i t ++ ins)
        = returnedItem i t ++ (t.queue ++ ins) := by
          rw [← List.append_assoc, exec_queue_order hinv hb hi hexec, List.append_assoc]
      _ = returnedItem i t ++ outs ++ u.queue := by
          rw [runLog_queue_order hinv' hb' hrest hrun, List.append_assoc]

/-- Settles O57, by induction on the run. Errors neither add nor take items, so the premise that the
run records none is not used. -/
theorem fifoOrderOverRuns : Obligations.FifoOrderOverRuns :=
  fun _ _ _ _ _ hinv hb hset h _ => runLog_queue_order hinv hb hset h

end Sys2Proof.Proofs
end

section
/-!
PROOFS. An ENQ and a DEQ at one edge of the one clock (20_memory R74): what each half of the edge
does, that it is what the command does alone, and that the edge is one of the two serial orders.
-/

namespace Sys2Proof.Proofs

open Sys2Proof Sys2Proof.Machine

/-! ## The views and the level outputs with one clock -/

section OneClock

variable {s : State} (hd : s.cfg.isDual = false)

include hd

theorem readView_of_single : s.readView = s.read := if_neg (Bool.eq_false_iff.1 hd)

theorem writeView_of_single : s.writeView = s.write := if_neg (Bool.eq_false_iff.1 hd)

theorem readShadow_of_single : s.readShadow = s.read := if_neg (Bool.eq_false_iff.1 hd)

theorem writeShadow_of_single : s.writeShadow = s.write := if_neg (Bool.eq_false_iff.1 hd)

theorem pFull_of_single : s.pFull = (s.next s.write == s.read) := by
  rw [State.pFull, readView_of_single hd]
  rfl

theorem cEmpty_of_single : s.cEmpty = (s.read == s.write) := by
  rw [State.cEmpty, writeView_of_single hd]
  rfl

theorem reloadReadShadow_of_single (c : Nat) : reloadReadShadow s c = s := by
  simp [reloadReadShadow, State.reloadsReadShadow, hd]

theorem reloadWriteShadow_of_single : reloadWriteShadow s = s := by
  simp [reloadWriteShadow, State.reloadsWriteShadow, hd]

end OneClock

/-! ## The two halves of an edge -/

theorem enqAtEdge_of_full {before : State} (hfull : before.next before.write = before.read)
    (item : Nat) (s : State) : enqAtEdge before item s = (s, okOn .producer false) := by
  simp [enqAtEdge, hfull]

theorem enqAtEdge_of_room {before s : State} (hroom : before.next before.write ≠ before.read)
    (hsame : before.next before.write = s.next s.write) (hlt : s.next s.write < s.cap)
    (item : Nat) : enqAtEdge before item s = (enqueued item s, okOn .producer true) := by
  have hcommit : enqCommit s (before.next before.write) item = .ok (enqueued item s) :=
    hsame ▸ enqCommit_next_eq_ok.2 ⟨hlt, rfl⟩
  simp [enqAtEdge, hroom, hcommit]

theorem deqAtEdge_of_empty {s : State} (hempty : s.read = s.write) :
    deqAtEdge s = (s, okOn .consumer false) := by
  simp [deqAtEdge, hempty]

theorem deqAtEdge_of_item {s : State} {v : Nat} (hitem : s.read ≠ s.write)
    (hlt : s.next s.read < s.cap) (hread : Memory.read s.slots (s.next s.read) = some v) :
    deqAtEdge s = (dequeued s, itemOut v) := by
  simp [deqAtEdge, hitem, deqCommit_eq_ok_iff.2 ⟨hlt, hread, rfl⟩]

/-- The DEQ half leaves the address of the ENQ half's store alone. -/
theorem deqAtEdge_next_write (s : State) :
    (deqAtEdge s).1.next (deqAtEdge s).1.write = s.next s.write := by
  obtain h | ⟨k, h⟩ | ⟨_, v, h⟩ := deqAtEdge_cases s
  · rw [h]
  · rw [h]; rfl
  · obtain ⟨_, _, h⟩ := deqCommit_eq_ok_iff.1 h
    rw [h]; rfl

/-! ## The commands alone and at one edge -/

section Alone

variable {s : State} (hready : s.Ready) (hd : s.cfg.isDual = false)

include hready hd

/-- With one clock an ENQ alone is the ENQ half of an edge. -/
theorem exec_enq_of_single (item : Nat) :
    exec (.enq item) s = answer (enqAtEdge s item s).2 (enqAtEdge s item s).1 := by
  obtain ⟨hb, hf⟩ := hready
  refine (portCommand_ready _ _ _ hb hf).trans ?_
  simp only [enqBody, enqAtEdge, reloadReadShadow_of_single hd, readShadow_of_single hd]
  by_cases hfull : (s.next s.write == s.read) = true
  · rw [if_pos hfull, if_pos hfull]
  · rw [if_neg hfull, if_neg hfull]
    cases enqCommit s (s.next s.write) item with
    | error e => rfl
    | ok t => rfl

/-- With one clock a DEQ alone is the DEQ half of an edge. -/
theorem exec_deq_of_single : exec .deq s = answer (deqAtEdge s).2 (deqAtEdge s).1 := by
  obtain ⟨hb, hf⟩ := hready
  refine (portCommand_ready _ _ _ hb hf).trans ?_
  simp only [deqBody, deqAtEdge, reloadWriteShadow_of_single hd, writeShadow_of_single hd]
  by_cases hempty : (s.read == s.write) = true
  · rw [if_pos hempty, if_pos hempty]
  · rw [if_neg hempty, if_neg hempty]
    cases deqCommit s with
    | error e => rfl
    | ok taken => rfl

theorem exec_enq_full_of_single (hfull : s.next s.write = s.read) (item : Nat) :
    exec (.enq item) s = answer (okOn .producer false) s := by
  rw [exec_enq_of_single hready hd, enqAtEdge_of_full hfull]

theorem exec_enq_room_of_single (hroom : s.next s.write ≠ s.read)
    (hlt : s.next s.write < s.cap) (item : Nat) :
    exec (.enq item) s = answer (okOn .producer true) (enqueued item s) := by
  rw [exec_enq_of_single hready hd, enqAtEdge_of_room hroom rfl hlt]

theorem exec_deq_empty_of_single (hempty : s.read = s.write) :
    exec .deq s = answer (okOn .consumer false) s := by
  rw [exec_deq_of_single hready hd, deqAtEdge_of_empty hempty]

theorem exec_deq_item_of_single {v : Nat} (hitem : s.read ≠ s.write) (hlt : s.next s.read < s.cap)
    (hread : Memory.read s.slots (s.next s.read) = some v) :
    exec .deq s = answer (itemOut v) (dequeued s) := by
  rw [exec_deq_of_single hready hd, deqAtEdge_of_item hitem hlt hread]

/-- With one clock and no window open, both commands at one instant are one edge. -/
theorem sameEdge_of_single (p : Bool) (item : Nat) :
    sameEdge p item s = oneClockEdge item s := by
  obtain ⟨hb, hf⟩ := hready
  rw [sameEdge, onInstance_built _ hb, hd, hf]
  rfl

end Alone

/-- The state that a step leaves, with the results it shows (R87). -/
def showing (o : Outputs) (s : State) : State := { s with out := o }

theorem execAll_pair {i j : Instr} {s t u : State} {o o' : Outputs} (hi : exec i s = answer o t)
    (hj : exec j (showing o t) = answer o' u) : execAll [i, j] s = .next (showing o' u) := by
  have hi : exec i s = .next (showing o t) := hi
  simp only [execAll, hi, hj]
  rfl

/-! ## The two serial orders -/

theorem next_ne_next {s : State} (hc : s.CapOk) {a b : Nat} (ha : a < s.cap) (hb : b < s.cap)
    (hne : a ≠ b) : s.next a ≠ s.next b := by
  rw [next_eq_ite hc ha, next_eq_ite hc hb]
  split_ifs <;> omega

/-- In a sound state that is not empty the slot behind `read` holds the oldest item (R39). -/
theorem exists_oldest {s : State} (h : s.InstanceInv) (hne : s.read ≠ s.write) :
    ∃ v, Memory.read s.slots (s.next s.read) = some v := by
  obtain ⟨hc, ⟨hwrite, hread, _⟩, _, _, hwritten, _⟩ := h
  have hpos : 0 < s.occupancy := by
    rw [State.occupancy, positions_eq_ite hread hwrite]
    split_ifs <;> omega
  exact Option.isSome_iff_exists.1 (occupiedSlot_zero hc ▸ hwritten 0 hpos)

section Orders

variable {s : State} (h : s.InstanceInv) (hready : s.Ready) (hd : s.cfg.isDual = false) (item : Nat)

include h hready hd

/-- When there is an item to take, the edge ends where ENQ then DEQ ends (R74). -/
theorem edge_eq_enq_deq (hitem : s.read ≠ s.write) :
    ∃ u, execAll [.enq item, .deq] s = .next u ∧
      (enqAtEdge s item (deqAtEdge s).1).1.quiet = u.quiet ∧
      (deqAtEdge s).2.cData = u.out.cData := by
  have ⟨hc, ⟨hwrite, hread, _⟩, _⟩ := h
  obtain ⟨v, hv⟩ := exists_oldest h hitem
  rw [deqAtEdge_of_item hitem (next_lt hc _) hv]
  by_cases hfull : s.next s.write = s.read
  · have hthen := exec_deq_item_of_single (s := showing (okOn .producer false) s) hready hd hitem
      (next_lt hc _) hv
    rw [enqAtEdge_of_full hfull]
    exact ⟨_, execAll_pair (exec_enq_full_of_single hready hd hfull item) hthen, rfl, rfl⟩
  · have hslot := next_ne_next hc hread hwrite hitem
    have hkept : Memory.read (enqueued item s).slots (s.next s.read) = some v :=
      (memory_read_write_other _ _ _ _ hslot).trans hv
    have hthen := exec_deq_item_of_single (s := showing (okOn .producer true) (enqueued item s))
      hready hd (Ne.symm hfull) (next_lt hc _) hkept
    rw [enqAtEdge_of_room (s := dequeued s) hfull rfl (next_lt hc _), enqueued_dequeued item hslot]
    exact ⟨_, execAll_pair (exec_enq_room_of_single hready hd hfull (next_lt hc _) item) hthen,
      rfl, rfl⟩

/-- When there is room, the edge ends where DEQ then ENQ ends (R74). -/
theorem edge_eq_deq_enq (hroom : s.next s.write ≠ s.read) :
    ∃ u, execAll [.deq, .enq item] s = .next u ∧
      (enqAtEdge s item (deqAtEdge s).1).1.quiet = u.quiet := by
  have ⟨hc, ⟨hwrite, hread, _⟩, _⟩ := h
  by_cases hempty : s.read = s.write
  · have hthen := exec_enq_room_of_single (s := showing (okOn .consumer false) s) hready hd hroom
      (next_lt hc _) item
    rw [deqAtEdge_of_empty hempty, enqAtEdge_of_room hroom rfl (next_lt hc _)]
    exact ⟨_, execAll_pair (exec_deq_empty_of_single hready hd hempty) hthen, rfl⟩
  · obtain ⟨v, hv⟩ := exists_oldest h hempty
    have hslot := next_ne_next hc hwrite hread (Ne.symm hempty)
    have hthen := exec_enq_room_of_single (s := showing (itemOut v) (dequeued s)) hready hd hslot
      (next_lt hc _) item
    rw [deqAtEdge_of_item hempty (next_lt hc _) hv,
      enqAtEdge_of_room (s := dequeued s) hroom rfl (next_lt hc _)]
    exact ⟨_, execAll_pair (exec_deq_item_of_single hready hd hempty (next_lt hc _) hv) hthen, rfl⟩

omit hready in
/-- The ENQ half answers on the cursors before the edge, whatever the DEQ half has done. -/
theorem enqAtEdge_pOk : (enqAtEdge s item (deqAtEdge s).1).2.pOk = !s.pFull := by
  have ⟨hc, _⟩ := h
  rw [pFull_of_single hd]
  by_cases hfull : s.next s.write = s.read
  · rw [enqAtEdge_of_full hfull, beq_iff_eq.2 hfull]
    rfl
  · have hsame := deqAtEdge_next_write s
    have hlt : s.next s.write < (deqAtEdge s).1.cap :=
      (next_lt hc _).trans_eq (SameInstance.deqAtEdge s).cap.symm
    rw [enqAtEdge_of_room hfull hsame.symm (hsame.trans_lt hlt), beq_false_of_ne hfull]
    rfl

omit hready in
theorem deqAtEdge_cOk : (deqAtEdge s).2.cOk = !s.cEmpty := by
  have ⟨hc, _⟩ := h
  rw [cEmpty_of_single hd]
  by_cases hempty : s.read = s.write
  · rw [deqAtEdge_of_empty hempty, beq_iff_eq.2 hempty]
    rfl
  · obtain ⟨v, hv⟩ := exists_oldest h hempty
    rw [deqAtEdge_of_item hempty (next_lt hc _) hv, beq_false_of_ne hempty]
    rfl

end Orders

/-- Settles O48: each half of the edge answers on the cursors before it, and the stores of the
halves commute. -/
theorem sameEdgeIsSomeSerialOrder : Obligations.SameEdgeIsSomeSerialOrder := by
  intro s item p ⟨_, hinst⟩ hready hd
  have h := hinst hready.1
  refine ⟨readView_of_single hd, writeView_of_single hd, _, sameEdge_of_single hready hd p item,
    enqAtEdge_pOk h hd item, deqAtEdge_cOk h hd, fun hempty => ?_, fun hempty => ?_,
    fun hfull => ?_⟩
  · rw [cEmpty_of_single hd, beq_eq_false_iff_ne] at hempty
    exact edge_eq_enq_deq h hready hd item hempty
  · rw [cEmpty_of_single hd, beq_iff_eq] at hempty
    exact congrArg (fun half => half.2.cData) (deqAtEdge_of_empty hempty)
  · rw [pFull_of_single hd, beq_eq_false_iff_ne] at hfull
    exact edge_eq_deq_enq h hready hd item hfull

end Sys2Proof.Proofs
end

section
/-!
PROOFS. The decoder (30_encoding R82, R84, R85, R92, R93): what it reads from a fitting word of each
port, that decoding undoes encoding, and that exactly the fitting words decode.
-/

namespace Sys2Proof.Proofs

open Sys2Proof Sys2Proof.Machine

/-! ## Fitting words, port by port -/

/-- On port P the opcode stands above the `DW` bits of `p_data` (R82). -/
theorem decode_pcmdWord {dw op data : Nat} (hop : op < 16) (hd : data < 2 ^ dw) :
    decode dw (pcmdWord dw op data) = .ok (decodeP op data) := by
  have hfits : op * 2 ^ dw + data < 2 ^ (dw + 4) :=
    of_decide_eq_true (Laws.pcmdWord_fits dw op data hop hd)
  have hop' : (op * 2 ^ dw + data) / 2 ^ dw = op := by
    rw [Nat.mul_comm, Nat.mul_add_div (Nat.two_pow_pos dw), Nat.div_eq_of_lt hd, Nat.add_zero]
  have hdata : (op * 2 ^ dw + data) % 2 ^ dw = data := by
    rw [Nat.mul_add_mod_self_right, Nat.mod_eq_of_lt hd]
  rw [pcmdWord, decode, if_pos hfits, hop', hdata]

theorem decode_ccmd {dw op : Nat} (hop : op < 16) : decode dw (.ccmd op) = .ok (decodeC op) :=
  if_pos hop

theorem decode_hcmd {dw op : Nat} (hop : op < 4) : decode dw (.hcmd op) = .ok (decodeH op) :=
  if_pos hop

/-! ## The reserved opcodes -/

theorem reservedOpcode_lt (low : BitVec 3) : reservedOpcode low < 16 := by
  have := low.isLt
  unfold reservedOpcode
  omega

/-- The three low bits of a reserved opcode are the operand it is made of (R88). -/
theorem ofNat_reservedOpcode (low : BitVec 3) : BitVec.ofNat 3 (reservedOpcode low) = low := by
  apply BitVec.eq_of_toNat_eq
  have := low.isLt
  simp only [BitVec.toNat_ofNat, reservedOpcode]
  omega

theorem decodeP_reservedOpcode (low : BitVec 3) (data : Nat) :
    decodeP (reservedOpcode low) data = .reservedP low := by
  have h : decodeP (reservedOpcode low) data = .reservedP (BitVec.ofNat 3 (reservedOpcode low)) := by
    rw [reservedOpcode, Nat.add_comm]
    rfl
  rw [h, ofNat_reservedOpcode]

theorem decodeC_reservedOpcode (low : BitVec 3) : decodeC (reservedOpcode low) = .reservedC low := by
  have h : decodeC (reservedOpcode low) = .reservedC (BitVec.ofNat 3 (reservedOpcode low)) := by
    rw [reservedOpcode, Nat.add_comm]
    rfl
  rw [h, ofNat_reservedOpcode]

theorem decode_reservedP {dw data : Nat} (low : BitVec 3) (hd : data < 2 ^ dw) :
    decode dw (pcmdWord dw (reservedOpcode low) data) = .ok (.reservedP low) :=
  (decode_pcmdWord (reservedOpcode_lt low) hd).trans (congrArg _ (decodeP_reservedOpcode low data))

theorem decode_reservedC (dw : Nat) (low : BitVec 3) :
    decode dw (.ccmd (reservedOpcode low)) = .ok (.reservedC low) :=
  (decode_ccmd (reservedOpcode_lt low)).trans (congrArg _ (decodeC_reservedOpcode low))

/-! ## The round trip and the opcode maps -/

/-- Settles O1: on port P the two fields of the word come apart again; every other word of an encoded
command is a literal of its format, but for the reserved opcodes of port C. -/
theorem decodeEncodeRoundTrip : Obligations.DecodeEncodeRoundTrip := by
  intro dw i hwf
  have hzero : 0 < 2 ^ dw := Laws.zero_fits dw
  cases i with
  | nopP | lenP | isEmptyP | isFullP | capP | dbgP | illegalPDeq =>
    exact decode_pcmdWord (by decide) hzero
  | enq item =>
    have hitem : item < 2 ^ dw := of_decide_eq_true hwf
    exact decode_pcmdWord (op := 1) (by decide) hitem
  | reservedP low => exact decode_reservedP low hzero
  | nopC | deq | lenC | isEmptyC | isFullC | capC | dbgC | illegalCEnq =>
    exact decode_ccmd (by decide)
  | reservedC low => exact decode_reservedC dw low
  | hnop | flushBegin | flushEnd | reset => exact decode_hcmd (by decide)
  | construct | constructFrom | syncW2r | syncR2w => rfl

/-- Settles O2, from what the decoder reads on each port. -/
theorem portOpcodeMap : Obligations.PortOpcodeMap := by
  intro dw data hd
  have hP : ∀ op < 8, decode dw (pcmdWord dw op data) = .ok (decodeP op data) :=
    fun op hop => decode_pcmdWord (by omega) hd
  have hC : ∀ op < 8, decode dw (.ccmd op) = .ok (decodeC op) :=
    fun op hop => decode_ccmd (by omega)
  exact ⟨⟨hP 0 (by decide), hP 1 (by decide), hP 2 (by decide), hP 3 (by decide), hP 4 (by decide),
      hP 5 (by decide), hP 6 (by decide), hP 7 (by decide), fun low => decode_reservedP low hd⟩,
    hC 0 (by decide), hC 1 (by decide), hC 2 (by decide), hC 3 (by decide), hC 4 (by decide),
    hC 5 (by decide), hC 6 (by decide), hC 7 (by decide), decode_reservedC dw⟩

/-- The host port's map has four commands in its range (R85). -/
theorem decodeH_mem (op : Nat) : decodeH op ∈ [Instr.hnop, .flushBegin, .flushEnd, .reset] := by
  unfold decodeH
  split <;> simp

/-- Settles O3: every two-bit value decodes, and the map answers only these four commands. -/
theorem hostOpcodeMap : Obligations.HostOpcodeMap := fun _ w =>
  ⟨⟨decode_hcmd (by decide), decode_hcmd (by decide), decode_hcmd (by decide),
    decode_hcmd (by decide)⟩, fun hw => ⟨decodeH w, decodeH_mem w, decode_hcmd hw⟩⟩

/-! ## Which words decode -/

/-- A decoder that tests a bound answers a command exactly within it. -/
theorem exists_ok_ite_iff {bound : Prop} [Decidable bound] {i : Instr} {e : DecodeError} :
    (∃ j, (if bound then .ok i else .error e : Except DecodeError Instr) = .ok j) ↔
      decide bound = true := by
  by_cases h : bound
  · simp [h]
  · simp [h]

/-- Settles O4: on a port the decoder tests the bound of the format, and a one-bit field has the two
values it names. -/
theorem decodingIsTotalOnFittingWords : Obligations.DecodingIsTotalOnFittingWords := by
  intro dw r
  cases r with
  | pcmd | ccmd | hcmd => exact exists_ok_ite_iff
  | making hasInit hint init =>
    match hasInit with
    | 0 | 1 => exact iff_of_true ⟨_, rfl⟩ rfl
    | n + 2 => exact iff_of_false nofun (by simp [Request.fits])
  | agent dir =>
    match dir with
    | 0 | 1 => exact iff_of_true ⟨_, rfl⟩ rfl
    | n + 2 => exact iff_of_false nofun (by simp [Request.fits])

/-- Settles O5: each word is the encoding of its command, but `0x3AB`, whose `p_data` LEN ignores. -/
theorem wordsOfTheSpecDecode : Obligations.WordsOfTheSpecDecode :=
  have hround := decodeEncodeRoundTrip 8
  ⟨hround (.enq 10) rfl, hround (.enq 255) rfl,
    decode_pcmdWord (dw := 8) (op := 3) (data := 0xAB) (by decide) (by decide), hround .dbgP rfl,
    hround .illegalPDeq rfl, hround (.reservedP 0) rfl, hround .deq rfl, hround .illegalCEnq rfl,
    hround (.reservedC 7) rfl, hround .flushEnd rfl, hround (.constructFrom [7, 8, 9]) rfl,
    hround .syncR2w rfl⟩

end Sys2Proof.Proofs
end

section
/-!
PROOFS. Commands whose whole effect is one equation: FLUSH_BEGIN and FLUSH_END as a pair (30_encoding
R91, 41_lifecycle R125 to R127), ISEMPTY and ISFULL (44_status R163, R164), the illegal encodings
(30_encoding R88).
-/

namespace Sys2Proof.Proofs

open Sys2Proof Sys2Proof.Machine

/-! ## The flush pair -/

/-- FLUSH_BEGIN opens the window and does nothing else (R126). -/
theorem exec_flushBegin {s : State} (hb : s.built = true) :
    exec .flushBegin s = answer Outputs.zero { s with flushing := true } :=
  onInstance_built _ hb

/-- FLUSH_END in a window (R127). -/
theorem exec_flushEnd_of_flushing {s : State} (hb : s.built = true) (hf : s.flushing = true) :
    exec .flushEnd s = answer Outputs.zero (applyFlush s) :=
  (onInstance_built _ hb).trans (if_pos hf)

theorem cEmpty_applyFlush (s : State) : (applyFlush s).cEmpty = true := by
  rw [State.cEmpty, State.writeView, applyFlush_write, applyFlush_wsync, ite_self]
  rfl

theorem occupancy_applyFlush (s : State) : (applyFlush s).occupancy = 0 := by
  simp [State.occupancy, State.positions]

/-- A state with no occupied position is the empty queue (R39). -/
theorem queue_eq_nil {s : State} (h : s.occupancy = 0) : s.queue = [] := by
  rw [State.queue, h]
  rfl

/-- Settles O23: FLUSH_BEGIN opens the window in which FLUSH_END sets the cursors to 0. -/
theorem flushPairLeavesAnEmptyBuffer : Obligations.FlushPairLeavesAnEmptyBuffer := by
  intro s hb
  have hpair := execAll_pair (exec_flushBegin hb)
    (exec_flushEnd_of_flushing (s := showing Outputs.zero { s with flushing := true }) hb rfl)
  have hocc := occupancy_applyFlush (showing Outputs.zero { s with flushing := true })
  exact ⟨_, hpair, rfl, rfl, cEmpty_applyFlush _, hocc, queue_eq_nil hocc, rfl, rfl, rfl, rfl⟩

/-! ## The predicates -/

/-- Settles O32: each is a port command that answers the predicate of the port's pair of cursors. -/
theorem isEmptyAndIsFullReportThePredicates : Obligations.IsEmptyAndIsFullReportThePredicates :=
  fun _ hb =>
    ⟨fun hf => ⟨portCommand_ready .producer 0x4 _ hb hf, portCommand_ready .consumer 0x4 _ hb hf,
      portCommand_ready .producer 0x5 _ hb hf, portCommand_ready .consumer 0x5 _ hb hf, rfl, rfl⟩,
    fun hf => ⟨portCommand_flushing .producer 0x4 _ hb hf, portCommand_flushing .consumer 0x4 _ hb hf,
      portCommand_flushing .producer 0x5 _ hb hf, portCommand_flushing .consumer 0x5 _ hb hf⟩⟩

/-! ## The illegal encodings -/

/-- On an instance an illegal encoding raises, whatever `flushing` is (R88, R207). -/
theorem illegalCommand_built {s : State} (hb : s.built = true) (a : Agent) (op : Nat) :
    illegalCommand a op s = .next (raise .illegalCommand a op s) :=
  onInstance_built _ hb

/-- Settles O38: the four rows are illegal encodings of their port and opcode. -/
theorem illegalEncodingsRaise : Obligations.IllegalEncodingsRaise := fun _ low hb =>
  ⟨illegalCommand_built hb .producer 0x2, illegalCommand_built hb .producer (reservedOpcode low),
    illegalCommand_built hb .consumer 0x1, illegalCommand_built hb .consumer (reservedOpcode low)⟩

end Sys2Proof.Proofs
end

section
/-!
PROOFS. The index arithmetic of the specification (40_index_arith): the rounding of a capacity
(R101 to R103) and the construction that it stops (R121, R203), the wrapping adder and the distance
(R104, R107, R109), the bits of the Gray code (R110 to R112).
-/

namespace Sys2Proof.Proofs

open Sys2Proof Sys2Proof.Machine

/-! ## Capacity rounding -/

/-- The exponents from `j` on whose power of two is not below `n`. -/
def exponentsReaching (j n : Nat) : Set Nat := {i | j ≤ i ∧ n ≤ 2 ^ i}

/-- With fuel enough to reach `n`, `doubleUntil` stops at the first power of two that does. -/
theorem doubleUntil_isLeast {n : Nat} :
    ∀ (fuel j : Nat), n ≤ 2 ^ (j + fuel) →
      ∃ k, doubleUntil n fuel (2 ^ j) = 2 ^ k ∧ IsLeast (exponentsReaching j n) k
  | 0, j, hn => ⟨j, rfl, ⟨le_rfl, hn⟩, fun _ ⟨hji, _⟩ => hji⟩
  | fuel + 1, j, hn => by
    rw [doubleUntil]
    split
    · next hle => exact ⟨j, rfl, ⟨le_rfl, hle⟩, fun _ ⟨hji, _⟩ => hji⟩
    · next hlt =>
      have hfuel : n ≤ 2 ^ (j + 1 + fuel) := by rwa [Nat.add_right_comm]
      obtain ⟨k, hk, ⟨hjk, hnk⟩, hleast⟩ := doubleUntil_isLeast fuel (j + 1) hfuel
      refine ⟨k, by rw [← Nat.pow_succ', hk], ⟨by omega, hnk⟩, fun i ⟨hji, hni⟩ => ?_⟩
      have hne : j ≠ i := by rintro rfl; exact hlt hni
      exact hleast ⟨by omega, hni⟩

theorem nextPow2_of_gt {w n : Nat} (hn : 2 ^ (w - 1) < n) :
    nextPow2 w n = .error (.capacityOverflow n) := if_pos hn

/-- Up to the index width the exponent is the least from 1 on that reaches `n` (R101). -/
theorem nextPow2_isLeast {w n : Nat} (hn : n ≤ 2 ^ (w - 1)) :
    ∃ k, nextPow2 w n = .ok (2 ^ k) ∧ IsLeast (exponentsReaching 1 n) k := by
  have hfuel : n ≤ 2 ^ (1 + w) := hn.trans (Nat.pow_le_pow_right Nat.two_pos (by omega))
  obtain ⟨k, hk, hleast⟩ := doubleUntil_isLeast w 1 hfuel
  exact ⟨k, (if_neg hn.not_gt).trans (congrArg _ hk), hleast⟩

theorem nextPow2_eq_of_isLeast {w n k : Nat} (hn : n ≤ 2 ^ (w - 1))
    (hk : IsLeast (exponentsReaching 1 n) k) : nextPow2 w n = .ok (2 ^ k) := by
  obtain ⟨k', hk', hleast⟩ := nextPow2_isLeast hn
  rw [hk', hleast.unique hk]

/-- Settles O7: the exponent is at most `W - 1`, since `W - 1` reaches `n`. -/
theorem nextPow2IsTheLeastPowerOfTwo : Obligations.NextPow2IsTheLeastPowerOfTwo := by
  refine fun w n hw => ⟨nextPow2_of_gt, fun hn => ?_⟩
  obtain ⟨k, hk, ⟨h1k, hnk⟩, hleast⟩ := nextPow2_isLeast hn
  exact ⟨k, hk, h1k, hleast ⟨by omega, hn⟩, hnk, fun j h1j hnj => hleast ⟨h1j, hnj⟩⟩

/-- A power of two reaches `n` when its exponent is above the top bit of `n - 1`. -/
theorem le_two_pow_iff_log2_lt {n j : Nat} (hn : 2 ≤ n) : n ≤ 2 ^ j ↔ Nat.log2 (n - 1) < j := by
  rw [Nat.log2_lt (by omega)]
  omega

/-- Settles O8: the exponent one above the top bit of `n - 1` is the least that reaches `n`. -/
theorem nextPow2FromTheTopBit : Obligations.NextPow2FromTheTopBit := by
  refine fun w n hw hn => ⟨fun h3 => ?_, fun h2 => ?_⟩
  · have hreach : ∀ {j}, n ≤ 2 ^ j ↔ Nat.log2 (n - 1) < j := le_two_pow_iff_log2_lt (by omega)
    have hlow : 1 ≤ Nat.log2 (n - 1) := (Nat.le_log2 (by omega)).2 (by omega)
    have hhigh : Nat.log2 (n - 1) < w - 1 := hreach.1 hn
    have hleast : IsLeast (exponentsReaching 1 n) (Nat.log2 (n - 1) + 1) :=
      ⟨⟨by omega, hreach.2 (Nat.lt_succ_self _)⟩, fun _ ⟨_, hi⟩ => hreach.1 hi⟩
    exact ⟨hlow, by omega, nextPow2_eq_of_isLeast hn hleast, addrWidth_two_pow _⟩
  · exact ⟨nextPow2_eq_of_isLeast (k := 1) hn ⟨⟨le_rfl, h2⟩, fun _ ⟨h1, _⟩ => h1⟩,
      addrWidth_two_pow 1⟩

/-! ## A construction past the index width -/

theorem onNoInstance_unbuilt {s : State} (k : Host.Outcome State Fault Refusal)
    (hb : s.built = false) : onNoInstance s k = k := if_neg (Bool.eq_false_iff.1 hb)

/-- Settles O17: rounding fails, and it is the first thing that either construction does. -/
theorem overflowingConstructionMakesNothing : Obligations.OverflowingConstructionMakesNothing := by
  refine fun s hint init hb => ⟨fun hover => ?_, fun hover => ?_⟩
  · change execConstruct hint s = _
    rw [execConstruct, nextPow2_of_gt hover, onNoInstance_unbuilt _ hb]
  · change execConstructFrom init s = _
    rw [execConstructFrom, nextPow2_of_gt hover, onNoInstance_unbuilt _ hb]

/-! ## The wrapping adder and the distance -/

/-- Settles O9: CAP divides `2^W`, so the wrap of the adder is lost in the mask. -/
theorem incIsSuccessorModuloCap : Obligations.IncIsSuccessorModuloCap := by
  intro w k c _ hkw _
  have hinc : ∀ c, inc w (2 ^ k) c = (c + 1) % 2 ^ k := inc_eq_mod (by omega)
  have hpos : 0 < 2 ^ k := Nat.two_pow_pos k
  refine ⟨?_, hinc c, fun hc => ?_, ?_, ?_⟩
  · rw [hinc]
    exact Nat.mod_lt _ hpos
  · rw [hinc, Nat.mod_eq_of_lt (by omega)]
  · rw [hinc, Nat.sub_add_cancel hpos, Nat.mod_self]
  · rw [hinc, Nat.sub_add_cancel (Nat.two_pow_pos w)]
    exact Nat.mod_eq_zero_of_dvd (Nat.pow_dvd_pow 2 (by omega))

theorem len_lt (w k r v : Nat) : len w (2 ^ k) r v < 2 ^ k := by
  rw [len, mask, Nat.and_two_pow_sub_one_eq_mod]
  exact Nat.mod_lt _ (Nat.two_pow_pos k)

/-- The borrow of the subtractor is a multiple of CAP (R107). -/
theorem len_eq_emod {w k r v : Nat} (hkw : k ≤ w) (hr : r < 2 ^ w) :
    (len w (2 ^ k) r v : Int) = ((v : Int) - r) % (2 ^ k : Nat) := by
  have hdvd : 2 ^ k ∣ 2 ^ w := Nat.pow_dvd_pow 2 hkw
  have hlen : len w (2 ^ k) r v = (v + (2 ^ w - r)) % 2 ^ k := by
    rw [len, mask, Nat.and_two_pow_sub_one_eq_mod, subW, Nat.mod_eq_of_lt hr,
      Nat.mod_mod_of_dvd _ hdvd]
  obtain ⟨m, hm⟩ := hdvd
  calc (len w (2 ^ k) r v : Int)
      = ((v : Int) - r + (2 ^ w : Nat)) % (2 ^ k : Nat) := by
        rw [hlen, Int.natCast_emod, Int.natCast_add, Int.natCast_sub hr.le]
        congr 1
        omega
    _ = ((v : Int) - r) % (2 ^ k : Nat) := by
        rw [hm, Int.natCast_mul, Int.add_mul_emod_self_left]

/-- Settles O10: the mask bounds the result, and the borrow is lost in it. -/
theorem lenIsDifferenceModuloCap : Obligations.LenIsDifferenceModuloCap :=
  fun w k r v _ hkw hr _ => ⟨len_lt w k r v, len_eq_emod (by omega) hr⟩

/-- The distance of two cursors on the ring, the wrap on its own. -/
theorem len_eq_ite {w k r v : Nat} (hkw : k ≤ w) (hr : r < 2 ^ k) (hv : v < 2 ^ k) :
    len w (2 ^ k) r v = if r ≤ v then v - r else v + 2 ^ k - r := by
  have hlen := len_eq_emod (v := v) hkw (hr.trans_le (Nat.pow_le_pow_right Nat.two_pos hkw))
  split
  · rw [Int.emod_eq_of_lt (by omega) (by omega)] at hlen
    omega
  · rw [← Int.add_emod_right, Int.emod_eq_of_lt (by omega) (by omega)] at hlen
    omega

theorem inc_eq_ite {w k c : Nat} (hkw : k ≤ w) (hc : c < 2 ^ k) :
    inc w (2 ^ k) c = if c + 1 = 2 ^ k then 0 else c + 1 := by
  rw [inc_eq_mod hkw]
  split
  · next hwrap => rw [hwrap, Nat.mod_self]
  · exact Nat.mod_eq_of_lt (by omega)

/-- Settles O11: the distance is CAP - 1 exactly when one more step would close the ring. -/
theorem predicatesAgreeWithLen : Obligations.PredicatesAgreeWithLen := by
  intro w k r v h1k hkw hr hv
  have hcap : 2 ≤ 2 ^ k := Nat.le_self_pow (by omega) 2
  have hlen := len_eq_ite (w := w) (by omega) hr hv
  have hempty : isEmpty r v = true ↔ len w (2 ^ k) r v = 0 := by
    rw [isEmpty, beq_iff_eq, hlen]
    split_ifs <;> omega
  have hfull : isFull w (2 ^ k) r v = true ↔ len w (2 ^ k) r v = usableCap (2 ^ k) := by
    rw [isFull, beq_iff_eq, inc_eq_ite (by omega) hv, hlen, usableCap]
    split_ifs <;> omega
  refine ⟨hempty, hfull, fun ⟨he, hf⟩ => ?_⟩
  have hzero : 0 = 2 ^ k - 1 := (hempty.1 he).symm.trans (hfull.1 hf)
  omega

/-! ## The bits of the Gray code -/

theorem testBit_bin2gray {aw b : Nat} (hb : b < 2 ^ aw) (i : Nat) :
    (bin2gray aw b).testBit i = (b.testBit i ^^ b.testBit (i + 1)) := by
  rw [bin2gray_of_lt hb, Nat.testBit_xor, Nat.testBit_shiftRight, Nat.add_comm]

/-- Read off the code of `gray2bin(g)`, which is `g`. -/
theorem testBit_gray2bin {aw g : Nat} (hg : g < 2 ^ aw) (i : Nat) :
    (gray2bin aw g).testBit i = (g.testBit i ^^ (gray2bin aw g).testBit (i + 1)) := by
  have h := testBit_bin2gray (gray2bin_lt aw g) i
  rw [bin2gray_gray2bin hg] at h
  rw [h, Bool.xor_assoc, Bool.xor_self, Bool.xor_false]

/-- Settles O12: the bit above the top one is 0, so the rule of the lower bits gives the top bit too. -/
theorem grayCodeIsInverted : Obligations.GrayCodeIsInverted := by
  refine fun aw b hb => ⟨bin2gray_lt aw b, gray2bin_lt aw b, gray2bin_bin2gray hb,
    bin2gray_gray2bin hb, fun i _ => ⟨testBit_bin2gray hb i, testBit_gray2bin hb i⟩, ?_⟩
  rintro i rfl
  rw [testBit_bin2gray hb, testBit_gray2bin hb, Nat.testBit_lt_two_pow hb,
    Nat.testBit_lt_two_pow (gray2bin_lt _ b), Bool.xor_false]
  exact ⟨rfl, rfl⟩

/-- The last cursor value before the wrap has the code of its top bit alone (R112). -/
theorem bin2gray_two_pow_sub_one (k : Nat) : bin2gray (k + 1) (2 ^ (k + 1) - 1) = 2 ^ k := by
  rw [bin2gray_of_lt (Nat.sub_lt (Nat.two_pow_pos _) Nat.one_pos), xor_shiftRight_one_of_low_ones]

/-- Settles O13: the codes have `AW` bits, so the one bit in which they differ is among them. -/
theorem adjacentGrayCodesDifferInOneBit : Obligations.AdjacentGrayCodesDifferInOneBit := by
  intro w k c h1k hkw hc
  refine ⟨?_, ?_, bin2gray_zero k⟩
  · obtain ⟨j, hj⟩ := bin2gray_xor_bin2gray_succ h1k hc
    rw [inc_eq_mod (by omega)]
    have hlt : 2 ^ j < 2 ^ k := hj ▸ Nat.xor_lt_two_pow (bin2gray_lt k _) (bin2gray_lt k _)
    exact ⟨j, (Nat.pow_lt_pow_iff_right (by decide)).1 hlt, hj⟩
  · obtain ⟨m, rfl⟩ := Nat.exists_eq_succ_of_ne_zero (Nat.one_le_iff_ne_zero.1 h1k)
    exact bin2gray_two_pow_sub_one m

end Sys2Proof.Proofs
end

section
/-!
PROOFS. The lifecycle of an instance (41_lifecycle): the construction it begins with and the lengths at
which that fails (R120 to R122), CONSTRUCT_FROM as a CONSTRUCT with the items enqueued (R123), RESET
(R124), the flush window (R126, R127) and the commands that do nothing (R128, R167).
-/

namespace Sys2Proof.Proofs

open Sys2Proof Sys2Proof.Machine

/-! ## A state whose registers are as reset leaves them -/

theorem whenDual_of_dual {s : State} (hd : s.cfg.isDual = true) (v : Nat) : s.whenDual v = v :=
  if_pos hd

theorem settledChain_zero_of_dual {s : State} (hd : s.cfg.isDual = true) :
    s.settledChain 0 = List.replicate s.cfg.nsync 0 := by
  rw [State.settledChain, if_pos hd, State.gray, bin2gray_zero]

theorem eq_zero_of_mem_settledChain_zero {s : State} {g : Nat} (hg : g ∈ s.settledChain 0) :
    g = 0 := by
  rw [State.settledChain] at hg
  split at hg
  · rw [List.eq_of_mem_replicate hg, State.gray, bin2gray_zero]
  · cases hg

theorem len_self (w cap r : Nat) (hr : r < 2 ^ w) : len w cap r r = 0 := by
  rw [len, subW, Nat.mod_eq_of_lt hr, Nat.add_sub_cancel' hr.le, Nat.mod_self, Nat.zero_and]

/-- The copies of the cursors of an empty state, and its predicates (R41, R105, R107). -/
structure Cleared (s : State) : Prop where
  wrShadow : s.wrShadow = 0
  wsync : s.wsync = 0
  wgray : s.wgray = 0
  stages : ∀ g ∈ s.w2r ++ s.r2w, g = 0
  chains : s.cfg.isDual = true →
    s.w2r = List.replicate s.cfg.nsync 0 ∧ s.r2w = List.replicate s.cfg.nsync 0
  cEmpty : s.cEmpty = true
  len : len s.cfg.w s.cap s.read s.write = 0

theorem FreshAt.cleared {s : State} (h : FreshAt s 0) : Cleared s := by
  have hwsync : s.wsync = 0 := h.wsync.trans (whenDual_zero s)
  refine ⟨h.wrShadow.trans (whenDual_zero s), hwsync, h.wgray.trans (grayReg_zero s),
    fun g hg => ?_, fun hd => ?_, ?_, ?_⟩
  · rw [h.w2r, h.r2w, List.mem_append, or_self] at hg
    exact eq_zero_of_mem_settledChain_zero hg
  · rw [h.w2r, h.r2w]
    exact ⟨settledChain_zero_of_dual hd, settledChain_zero_of_dual hd⟩
  · rw [State.cEmpty, State.writeView, h.read, h.write, hwsync, ite_self]
    rfl
  · rw [h.read, h.write]
    exact len_self _ _ 0 (Nat.two_pow_pos _)

/-- What R41 gives the registers of the crossing. -/
theorem applyReset_of_dual {s : State} (hd : s.cfg.isDual = true) (cap : Nat) (init : List Nat) :
    (applyReset s cap init).wsync = init.length ∧ (applyReset s cap init).wrShadow = init.length ∧
      (applyReset s cap init).wgray = bin2gray (addrWidth cap) init.length ∧
      (applyReset s cap init).w2r =
        List.replicate s.cfg.nsync (bin2gray (addrWidth cap) init.length) ∧
      (applyReset s cap init).r2w = List.replicate s.cfg.nsync 0 :=
  ⟨whenDual_of_dual hd _, whenDual_of_dual hd _, whenDual_of_dual hd _, if_pos hd,
    settledChain_zero_of_dual (s := { s with cap := cap }) hd⟩

/-- No slot below the first is written. -/
theorem initialSlots_read_lt {dw k : Nat} :
    ∀ {init : List Nat} {i : Nat}, k < i → Memory.read (initialSlots dw i init) k = none
  | [], _, _ => rfl
  | _ :: _, _, hk => (if_neg hk.ne).trans (initialSlots_read_lt (hk.trans (Nat.lt_succ_self _)))

/-- `slot[k + 1]` of the reset state holds the `k`-th item of INIT, cut to `DW` bits (R41). -/
theorem initialSlots_one_read (dw : Nat) (init : List Nat) (k : Nat) :
    Memory.read (initialSlots dw 1 init) (k + 1) = init[k]?.map (dataField dw) := by
  rw [Nat.add_comm, initialSlots_read]

theorem map_dataField_of_fits {dw : Nat} {init : List Nat} (h : init.all (datumFits dw) = true)
    (k : Nat) : init[k]?.map (dataField dw) = init[k]? := by
  cases hk : init[k]? with
  | none => rfl
  | some v =>
    have hv := List.all_eq_true.1 h v (List.mem_of_getElem? hk)
    exact congrArg some (Nat.mod_eq_of_lt (of_decide_eq_true hv))

/-! ## Construction -/

/-- The instance that construction makes (R120, R122). -/
def constructed (s : State) (cap : Nat) (init : List Nat) : State :=
  { applyReset s cap init with fault := [] }

section Construct

variable {s : State} {cap : Nat} {init : List Nat} (hb : s.built = false)

include hb

theorem exec_construct {hint : Nat} (hcap : nextPow2 s.cfg.w hint = .ok cap) :
    exec (.construct hint) s = .next (constructed s cap []) := by
  change execConstruct hint s = _
  rw [execConstruct, onNoInstance_unbuilt _ hb, hcap]
  rfl

theorem exec_constructFrom_of_fits (hcap : nextPow2 s.cfg.w init.length = .ok cap)
    (hfits : init.length ≤ usableCap cap) :
    exec (.constructFrom init) s = .next (constructed s cap init) := by
  change execConstructFrom init s = _
  rw [execConstructFrom, onNoInstance_unbuilt _ hb, hcap]
  exact if_neg hfits.not_gt

theorem exec_constructFrom_of_too_long (hcap : nextPow2 s.cfg.w init.length = .ok cap)
    (hlong : usableCap cap < init.length) :
    exec (.constructFrom init) s = .fault (.initTooLong init.length (usableCap cap)) := by
  change execConstructFrom init s = _
  rw [execConstructFrom, onNoInstance_unbuilt _ hb, hcap]
  exact if_pos hlong

end Construct

theorem exec_constructFrom_next {s t : State} {init : List Nat}
    (h : exec (.constructFrom init) s = .next t) :
    ∃ cap, nextPow2 s.cfg.w init.length = .ok cap ∧ init.length ≤ usableCap cap ∧
      t = constructed s cap init := by
  obtain ⟨_, h⟩ := onNoInstance_next h
  split at h
  · cases h
  · next cap hcap =>
    split at h
    · cases h
    · next hfits =>
      cases h
      exact ⟨cap, hcap, Nat.le_of_not_gt hfits, rfl⟩

/-- Settles O14: rounding gives CAP, and the state it makes is fresh with no items. -/
theorem constructMakesTheEmptyInstance : Obligations.ConstructMakesTheEmptyInstance := by
  intro s hint _ hb
  refine ⟨fun hover => (overflowingConstructionMakesNothing s hint [] hb).1 hover, fun hhint => ?_⟩
  obtain ⟨k, hcap, _⟩ := nextPow2_isLeast hhint
  have hcleared : Cleared (constructed s (2 ^ k) []) :=
    (freshAt_applyReset (s := { s with fault := [] }) (Nat.zero_le _)).cleared
  exact ⟨_, exec_construct hb hcap, hcap, rfl, rfl, rfl, rfl, rfl, rfl, rfl, hcleared.wrShadow, rfl,
    hcleared.wsync, hcleared.wgray, rfl, hcleared.stages, hcleared.chains, rfl, rfl, rfl, rfl, rfl,
    hcleared.cEmpty, hcleared.len⟩

/-- Settles O15: the reset state with INIT, none of whose items is cut. -/
theorem constructFromMakesTheFilledInstance : Obligations.ConstructFromMakesTheFilledInstance :=
  fun _ init cap _ hb hinit hcap hfits =>
    ⟨_, exec_constructFrom_of_fits hb hcap hfits, rfl, rfl, rfl, rfl, rfl, rfl, rfl, rfl, rfl,
      fun hd => applyReset_of_dual hd cap init, rfl,
      fun k => (initialSlots_one_read _ _ k).trans (map_dataField_of_fits hinit k),
      initialSlots_read_lt Nat.one_pos, rfl, rfl, rfl, rfl⟩

/-- Settles O16: a power of two is its own CAP, which leaves no free slot; any other length is below
its CAP. -/
theorem constructFromFailsAtPowersOfTwo : Obligations.ConstructFromFailsAtPowersOfTwo := by
  refine fun s init _ hb hlen => ⟨fun ⟨k, h1k, hk⟩ => ?_, fun hne => ?_⟩
  · have hleast : IsLeast (exponentsReaching 1 init.length) k :=
      ⟨⟨h1k, hk.le⟩, fun _ ⟨_, hi⟩ => (Nat.pow_le_pow_iff_right (by decide)).1 (hk ▸ hi)⟩
    have hlong : usableCap (2 ^ k) < init.length :=
      (Nat.sub_lt (Nat.two_pow_pos k) Nat.one_pos).trans_eq hk.symm
    rw [exec_constructFrom_of_too_long hb (nextPow2_eq_of_isLeast hlen hleast) hlong, hk]
    rfl
  · obtain ⟨k, hcap, ⟨h1k, hle⟩, _⟩ := nextPow2_isLeast hlen
    exact ⟨_, exec_constructFrom_of_fits hb hcap (Nat.le_pred_of_lt (hle.lt_of_ne (hne k h1k)))⟩

theorem onInstance_unbuilt {s : State} (k : Host.Outcome State Fault Refusal)
    (hb : s.built = false) : onInstance s k = .refused .noInstance := if_neg (Bool.eq_false_iff.1 hb)

theorem onNoInstance_built {s : State} (k : Host.Outcome State Fault Refusal)
    (hb : s.built = true) : onNoInstance s k = .refused .alreadyBuilt := if_pos hb

/-- Settles O18: every command but the two constructions asks for the instance first. -/
theorem constructionComesOnceAndFirst : Obligations.ConstructionComesOnceAndFirst := by
  refine fun s hint init i =>
    ⟨fun hb => ⟨onNoInstance_built _ hb, onNoInstance_built _ hb⟩, fun hb hhint hinit => ?_⟩
  cases i with
  | construct n => exact absurd rfl (hhint n)
  | constructFrom l => exact absurd rfl (hinit l)
  | _ => exact onInstance_unbuilt _ hb

/-! ## RESET, the flush window, and the commands that do nothing -/

/-- Settles O20: RESET is the reset state with the instance's own CAP and INIT. -/
theorem resetReturnsToTheConstructedState : Obligations.ResetReturnsToTheConstructedState :=
  fun s hb =>
    ⟨applyReset s s.cap s.init, onInstance_built _ hb, rfl, rfl, rfl, rfl, rfl, rfl, rfl, rfl, rfl,
      rfl, rfl, rfl, fun hd => applyReset_of_dual hd s.cap s.init, initialSlots_one_read _ _,
      initialSlots_read_lt Nat.one_pos, rfl, rfl⟩

/-- Settles O22: the state after FLUSH_END is fresh with no items. -/
theorem flushEndEmptiesTheBuffer : Obligations.FlushEndEmptiesTheBuffer := by
  refine fun s hb => ⟨fun hf => (onInstance_built _ hb).trans (if_neg (Bool.eq_false_iff.1 hf)),
    fun hf => ?_⟩
  have hcleared : Cleared (applyFlush s) := (freshAt_applyFlush s).cleared
  have hnext (hc : s.CapOk) : (applyFlush s).next 0 = 1 :=
    (next_eq_mod (s := applyFlush s) hc 0).trans (Nat.mod_eq_of_lt (two_le_cap hc))
  exact ⟨_, exec_flushEnd_of_flushing hb hf, rfl, rfl, rfl, rfl, rfl, rfl, rfl, rfl,
    hcleared.stages, hcleared.chains, rfl, rfl, rfl, rfl, rfl, rfl, rfl, hb, rfl, rfl,
    hcleared.cEmpty, hcleared.len, hnext⟩

theorem exec_syncW2r_of_disabled {s : State} (hb : s.built = true) (h : s.w2rEnabled = false) :
    exec .syncW2r s = .refused .agentDisabled :=
  (onInstance_built _ hb).trans (if_neg (Bool.eq_false_iff.1 h))

theorem exec_syncR2w_of_disabled {s : State} (hb : s.built = true) (h : s.r2wEnabled = false) :
    exec .syncR2w s = .refused .agentDisabled :=
  (onInstance_built _ hb).trans (if_neg (Bool.eq_false_iff.1 h))

theorem w2rEnabled_of_flushing {s : State} (hf : s.flushing = true) : s.w2rEnabled = false := by
  simp [State.w2rEnabled, hf]

theorem r2wEnabled_of_flushing {s : State} (hf : s.flushing = true) : s.r2wEnabled = false := by
  simp [State.r2wEnabled, hf]

/-- Settles O21: FLUSH_BEGIN opens the window, in which neither agent is enabled. -/
theorem flushBeginOpensTheWindow : Obligations.FlushBeginOpensTheWindow := by
  intro s hb
  have hw2r := exec_syncW2r_of_disabled (s := showing Outputs.zero { s with flushing := true }) hb
    (w2rEnabled_of_flushing rfl)
  have hr2w := exec_syncR2w_of_disabled (s := showing Outputs.zero { s with flushing := true }) hb
    (r2wEnabled_of_flushing rfl)
  exact ⟨_, exec_flushBegin hb, rfl, fun u =>
    ⟨fun h => (nomatch hw2r.symm.trans h), fun h => (nomatch hr2w.symm.trans h)⟩⟩

/-- Settles O24: each answers zero results on the instance as it is. -/
theorem nopsChangeNothing : Obligations.NopsChangeNothing := fun _ hb =>
  ⟨onInstance_built _ hb, onInstance_built _ hb, onInstance_built _ hb⟩

end Sys2Proof.Proofs
end

section
/-!
PROOFS. CONSTRUCT_FROM ends where CONSTRUCT, the ENQ of its items and the settling of the view end
(41_lifecycle R123): the states in between in closed form, one step of each kind, and the two runs.
-/

namespace Sys2Proof.Proofs

open Sys2Proof Sys2Proof.Machine

/-! ## Runs of commands -/

theorem execAll_cons_of_answer {i : Instr} {s t : State} {o : Outputs} (h : exec i s = answer o t)
    (is : List Instr) : execAll (i :: is) s = execAll is (showing o t) := by
  have hnext : exec i s = .next (showing o t) := h
  simp only [execAll, hnext]

theorem execAll_append_of_next {is : List Instr} {t : State} (js : List Instr) :
    ∀ {s : State}, execAll is s = .next t → execAll (is ++ js) s = execAll js t := by
  induction is with
  | nil =>
    rintro s ⟨⟩
    rfl
  | cons i is ih =>
    intro s h
    simp only [execAll, List.cons_append] at h ⊢
    split at h
    · exact ih h
    · cases h
    · cases h

/-! ## One ENQ with room, one step of SYNC_W2R -/

theorem exec_enq_of_room {s : State} (hready : s.Ready)
    (hload : reloadReadShadow s (s.next s.write) = s) (hroom : s.next s.write ≠ s.readShadow)
    (hlt : s.next s.write < s.cap) (item : Nat) :
    exec (.enq item) s = answer (okOn .producer true) (enqueued item s) := by
  obtain ⟨hb, hf⟩ := hready
  refine (portCommand_ready _ _ _ hb hf).trans ?_
  simp [enqBody, hload, hroom, enqCommit_next_eq_ok.2 ⟨hlt, rfl⟩]

/-- The state that a step of SYNC_W2R leaves (R180). -/
def syncedW2r (s : State) : State :=
  { s with
    wsync := s.next s.wsync
    w2r := s.w2r.map (advanceCopy (s.gray s.wsync) (s.gray (s.next s.wsync)))
    wgrayPrev := advanceCopy (s.gray s.wsync) (s.gray (s.next s.wsync)) s.wgrayPrev
    ghost := { s.ghost with nws := s.ghost.nws + 1 } }

theorem exec_syncW2r_of_enabled {s : State} (hb : s.built = true) (h : s.w2rEnabled = true) :
    exec .syncW2r s = answer Outputs.zero (syncedW2r s) :=
  (onInstance_built _ hb).trans (if_pos h)

/-- A store behind the slots of the reset state is one item more (R41). -/
theorem initialSlots_write (dw v : Nat) :
    ∀ (init : List Nat) (i : Nat),
      Memory.write (initialSlots dw i init) (i + init.length) (dataField dw v) =
        initialSlots dw i (init ++ [v])
  | [], _ => rfl
  | u :: rest, i => by
    have ih := initialSlots_write dw v rest (i + 1)
    rw [Nat.add_right_comm, Nat.add_assoc] at ih
    rw [initialSlots, Memory.write, if_neg (by omega), if_neg (by simp), List.length_cons, ih]
    rfl

/-! ## The instance while its items go in -/

/-- `u` with `write` at `n`, its view and its chain at rest at `view`, a Gray register that coded `prev`
before its latest change, and the given slots and counters. -/
def atCursor (u : State) (n view prev : Nat) (slots : Memory) (g : Ghost) : State :=
  { u with
    write := n
    wsync := view
    wgray := u.grayReg n
    wgrayPrev := u.grayReg prev
    w2r := u.settledChain view
    slots := slots
    ghost := g }

theorem settledChain_advance (u : State) (view new : Nat) :
    (u.settledChain view).map (advanceCopy (u.gray view) (u.gray new)) = u.settledChain new := by
  unfold State.settledChain
  split
  · rw [List.map_replicate, advanceCopy, if_pos rfl]
  · rfl

/-- A step of SYNC_W2R moves the chain that rests at the view, and takes the earlier Gray value along
when that is the view's (log 8). -/
theorem syncedW2r_atCursor {u : State} (hc : u.CapOk) (hd : u.cfg.isDual = true) {n view prev : Nat}
    (hview : view < u.cap) (hprev : prev < u.cap) (slots : Memory) (g : Ghost) :
    syncedW2r (atCursor u n view prev slots g) =
      atCursor u n (u.next view) (advanceCopy view (u.next view) prev) slots
        { g with nws := g.nws + 1 } := by
  have hcopy : advanceCopy (u.gray view) (u.gray (u.next view)) (u.grayReg prev) =
      u.grayReg (advanceCopy view (u.next view) prev) := by
    rw [grayReg_of_dual hd, grayReg_of_dual hd, advanceCopy_gray hc hview hprev]
  calc syncedW2r (atCursor u n view prev slots g)
      = { atCursor u n (u.next view) (advanceCopy view (u.next view) prev) slots
            { g with nws := g.nws + 1 } with
          w2r := (u.settledChain view).map (advanceCopy (u.gray view) (u.gray (u.next view)))
          wgrayPrev := advanceCopy (u.gray view) (u.gray (u.next view)) (u.grayReg prev) } := rfl
    _ = _ := by
        rw [settledChain_advance, hcopy]
        rfl

/-- The ghost counters with `n` items in, `k` of them in the consumer's view. -/
def loadingGhost (dual : Bool) (n k : Nat) : Ghost :=
  { nw := n, nr := 0, nws := if dual then k else n, nwc := if dual then 0 else n, nrs := 0, nrc := 0 }

theorem loadingGhost_afterEnq (dual : Bool) (n : Nat) :
    (loadingGhost dual n 0).afterEnq dual = loadingGhost dual (n + 1) 0 := by
  cases dual with
  | true => rfl
  | false => rfl

/-- The constructed instance after the ENQ of the items `done` and `k` steps of SYNC_W2R. The Gray
register's earlier value is one store behind it until the view comes to that store (log 8, log 9). -/
def loading (s : State) (cap : Nat) (done : List Nat) (k : Nat) : State :=
  atCursor (constructed s cap []) done.length k (max k (done.length - 1))
    (initialSlots s.cfg.dw 1 done) (loadingGhost s.cfg.isDual done.length k)

theorem loading_nil (s : State) (cap : Nat) : loading s cap [] 0 = constructed s cap [] := by
  have hwsync : 0 = (constructed s cap []).wsync := (whenDual_zero s).symm
  have hghost : loadingGhost s.cfg.isDual 0 0 = (constructed s cap []).ghost := by
    simp only [loadingGhost, ite_self]
    rfl
  calc loading s cap [] 0
      = { constructed s cap [] with wsync := 0, ghost := loadingGhost s.cfg.isDual 0 0 } := rfl
    _ = constructed s cap [] := by rw [hghost, hwsync]

/-- With the view of `read` at 0 a reload of `rd_shadow` brings nothing new. -/
theorem reloadReadShadow_loading (s : State) (cap : Nat) (done : List Nat) (k : Nat) (o : Outputs)
    (c : Nat) : reloadReadShadow (showing o (loading s cap done k)) c =
      showing o (loading s cap done k) := by
  obtain ⟨_, h⟩ | ⟨_, h⟩ := reloadReadShadow_cases (showing o (loading s cap done k)) c
  · exact h
  · exact h

section Loading

variable {s : State} {cap : Nat} (hc : (constructed s cap []).CapOk)

include hc

theorem constructed_next {c : Nat} (hlt : c + 1 < cap) : (constructed s cap []).next c = c + 1 :=
  (next_eq_mod hc c).trans (Nat.mod_eq_of_lt hlt)

/-- The stores of an ENQ put its item behind the others. -/
theorem enqueued_loading {done : List Nat} (hlt : done.length + 1 < cap) (item : Nat) :
    enqueued item (loading s cap done 0) = loading s cap (done ++ [item]) 0 := by
  have hlen : (done ++ [item]).length = done.length + 1 := List.length_append
  have hslots := initialSlots_write s.cfg.dw item done 1
  calc enqueued item (loading s cap done 0)
      = atCursor (constructed s cap []) ((constructed s cap []).next done.length) 0 done.length
          (Memory.write (initialSlots s.cfg.dw 1 done) ((constructed s cap []).next done.length)
            (dataField s.cfg.dw item))
          ((loadingGhost s.cfg.isDual done.length 0).afterEnq s.cfg.isDual) := rfl
    _ = loading s cap (done ++ [item]) 0 := by
        rw [constructed_next hc hlt, loadingGhost_afterEnq, Nat.add_comm, hslots, loading, hlen,
          Nat.zero_max, Nat.add_sub_cancel, Nat.add_comm]

theorem exec_enq_loading {done : List Nat} (hlt : done.length + 1 < cap) (item : Nat) (o : Outputs) :
    exec (.enq item) (showing o (loading s cap done 0)) =
      answer (okOn .producer true) (loading s cap (done ++ [item]) 0) := by
  have hnext : (showing o (loading s cap done 0)).next done.length = done.length + 1 :=
    constructed_next hc hlt
  have hshadow : (showing o (loading s cap done 0)).readShadow = 0 := ite_self _
  rw [← enqueued_loading hc hlt]
  refine exec_enq_of_room ⟨rfl, rfl⟩ (reloadReadShadow_loading ..) ?_ (hnext.trans_lt hlt) item
  rw [hshadow]
  exact hnext.trans_ne (Nat.succ_ne_zero _)

/-- The ENQ of all the items, one after the other. -/
theorem execAll_enq_loading :
    ∀ (rest done : List Nat) (o : Outputs), done.length + rest.length < cap →
      ∃ o', execAll (rest.map Instr.enq) (showing o (loading s cap done 0)) =
        .next (showing o' (loading s cap (done ++ rest) 0))
  | [], done, o, _ => ⟨o, by rw [List.append_nil]; rfl⟩
  | item :: rest, done, o, hlt => by
    rw [List.length_cons] at hlt
    have henq := exec_enq_loading hc (done := done) (by omega) item o
    rw [List.map_cons, execAll_cons_of_answer henq, List.append_cons done item rest]
    exact execAll_enq_loading rest (done ++ [item]) _ (by simp; omega)

theorem syncedW2r_loading (hd : s.cfg.isDual = true) {done : List Nat} {k : Nat}
    (hk : k < done.length) (hlt : done.length < cap) :
    syncedW2r (loading s cap done k) = loading s cap done (k + 1) := by
  have hprev : advanceCopy k (k + 1) (max k (done.length - 1)) = max (k + 1) (done.length - 1) := by
    unfold advanceCopy
    split <;> omega
  have hghost : { loadingGhost s.cfg.isDual done.length k with
      nws := (loadingGhost s.cfg.isDual done.length k).nws + 1 } =
        loadingGhost s.cfg.isDual done.length (k + 1) := by
    rw [hd]
    rfl
  have hmax : max k (done.length - 1) < cap := by omega
  rw [loading, syncedW2r_atCursor hc hd (hk.trans hlt) hmax, constructed_next hc (by omega), hprev,
    hghost]
  rfl

theorem exec_syncW2r_loading (hd : s.cfg.isDual = true) {done : List Nat} {k : Nat}
    (hk : k < done.length) (hlt : done.length < cap) (o : Outputs) :
    exec .syncW2r (showing o (loading s cap done k)) =
      answer Outputs.zero (loading s cap done (k + 1)) := by
  have henabled : (showing o (loading s cap done k)).w2rEnabled = true := by
    change (s.cfg.isDual && true && k != done.length) = true
    simp [hd, hk.ne]
  rw [← syncedW2r_loading hc hd hk hlt]
  exact exec_syncW2r_of_enabled rfl henabled

/-- The view comes to `write`, one position after the other. -/
theorem execAll_syncW2r_loading (hd : s.cfg.isDual = true) {done : List Nat}
    (hlt : done.length < cap) :
    ∀ (n k : Nat) (o : Outputs), k + n = done.length →
      ∃ o', execAll (List.replicate n .syncW2r) (showing o (loading s cap done k)) =
        .next (showing o' (loading s cap done done.length))
  | 0, _, o, rfl => ⟨o, rfl⟩
  | n + 1, k, o, hk => by
    have hsync := exec_syncW2r_loading hc hd (done := done) (k := k) (by omega) hlt o
    rw [List.replicate_succ, execAll_cons_of_answer hsync]
    exact execAll_syncW2r_loading hd hlt n (k + 1) _ (by omega)

end Loading

/-! ## The end of both constructions -/

/-- With everything in and the view at rest, the two constructions differ in INIT and in the reload of
`wr_shadow` (R123). -/
theorem constructed_eq_loading (s : State) (cap : Nat) (init : List Nat) :
    constructed s cap init =
      let v := loading s cap init (if s.cfg.isDual then init.length else 0)
      { v with wrShadow := v.wsync, ghost := { v.ghost with nwc := v.ghost.nws }, init := init } := by
  cases hd : s.cfg.isDual with
  | true =>
    simp [constructed, applyReset, loading, atCursor, loadingGhost, State.whenDual, State.grayReg,
      State.gray, State.settledChain, hd]
  | false =>
    simp [constructed, applyReset, loading, atCursor, loadingGhost, State.whenDual, State.grayReg,
      State.settledChain, hd]

/-- Settles O19: the run goes through the states of `loading`, first item by item, then position by
position of the view. -/
theorem constructFromEqualsEnqueueing : Obligations.ConstructFromEqualsEnqueueing := by
  intro s t init hcfg hb h
  obtain ⟨cap, hcap, hfits, rfl⟩ := exec_constructFrom_next h
  have hc : (constructed s cap []).CapOk :=
    Constructs.capOk ⟨_, cap, [], hcap, Nat.zero_le _, rfl⟩ hcfg
  have hlt : init.length < cap :=
    hfits.trans_lt (Nat.sub_lt (Nat.two_pos.trans_le (two_le_cap hc)) Nat.one_pos)
  obtain ⟨o, henq⟩ := execAll_enq_loading hc init [] Outputs.zero (by simpa using hlt)
  obtain ⟨o', hsync⟩ : ∃ o', execAll (List.replicate (if s.cfg.isDual then init.length else 0)
      .syncW2r) (showing o (loading s cap init 0)) = .next (showing o'
        (loading s cap init (if s.cfg.isDual then init.length else 0))) := by
    split
    · exact execAll_syncW2r_loading hc ‹_› hlt _ 0 o (Nat.zero_add _)
    · exact ⟨o, rfl⟩
  rw [loading_nil] at henq
  refine ⟨_, _, exec_construct hb hcap, rfl, (execAll_append_of_next _ henq).trans hsync, ?_⟩
  rw [constructed_eq_loading]
  rfl

end Sys2Proof.Proofs
end

section
/-!
PROOFS. ENQ (42_enqueue R141, R142): the producer's reload as one update, ENQ in closed form with
and without room, what it leaves unchanged, and that in a sound state it is decided by `p_full`.
-/

namespace Sys2Proof.Proofs

open Sys2Proof Sys2Proof.Machine

/-! ## The state that ENQ decides on -/

/-- The state after the reload of an ENQ, on which the ENQ is accepted or rejected (R141). -/
def producerLoaded (s : State) : State := reloadReadShadow s (s.next s.write)

/-- The reload writes `rd_shadow` and its ghost, and whether it is made only picks their values. -/
theorem producerLoaded_eq (s : State) :
    producerLoaded s =
      { s with
        rdShadow := if s.reloadsReadShadow (s.next s.write) then s.rsync else s.rdShadow
        ghost := { s.ghost with
          nrc := if s.reloadsReadShadow (s.next s.write) then s.ghost.nrs else s.ghost.nrc } } := by
  unfold producerLoaded reloadReadShadow
  split <;> rfl

theorem producerLoaded_next_write (s : State) :
    (producerLoaded s).next (producerLoaded s).write = s.next s.write :=
  reloadReadShadow_next_write s _

/-- What an ENQ compares its candidate with (R141, R44). -/
theorem producerLoaded_readShadow (s : State) :
    (producerLoaded s).readShadow =
      if s.cfg.isDual then
        if s.reloadsReadShadow (s.next s.write) then s.rsync else s.rdShadow
      else s.read := by
  rw [producerLoaded_eq]
  rfl

/-- The ghosts after a reload and an accepted ENQ (R36); with one clock there is no reload. -/
theorem afterEnq_producerLoaded (s : State) :
    (producerLoaded s).ghost.afterEnq s.cfg.isDual =
      if s.cfg.isDual then
        { s.ghost with
          nrc := if s.reloadsReadShadow (s.next s.write) then s.ghost.nrs else s.ghost.nrc
          nw := s.ghost.nw + 1 }
      else
        { s.ghost with
          nw := s.ghost.nw + 1, nws := s.ghost.nws + 1, nwc := s.ghost.nwc + 1 } := by
  rw [producerLoaded_eq]
  cases hd : s.cfg.isDual with
  | true => rfl
  | false => simp [Ghost.afterEnq, State.reloadsReadShadow, hd]

/-! ## ENQ after its checks -/

theorem enqBody_of_full {s : State} (hfull : s.next s.write = (producerLoaded s).readShadow)
    (item : Nat) : enqBody item s = answer (okOn .producer false) (producerLoaded s) :=
  if_pos (beq_iff_eq.2 hfull)

theorem enqBody_of_room {s : State} (hlt : s.next s.write < s.cap)
    (hroom : s.next s.write ≠ (producerLoaded s).readShadow) (item : Nat) :
    enqBody item s = answer (okOn .producer true) (enqueued item (producerLoaded s)) := by
  have hcommit : enqCommit (producerLoaded s) (s.next s.write) item =
      .ok (enqueued item (producerLoaded s)) := by
    rw [← producerLoaded_next_write] at hlt ⊢
    refine enqCommit_next_eq_ok.2 ⟨hlt.trans_eq ?_, rfl⟩
    rw [producerLoaded_eq]
  obtain ⟨hfull, _⟩ | ⟨_, herror, _⟩ | ⟨_, _, hok, hbody⟩ := enqBody_cases item s
  · exact absurd hfull hroom
  · cases hcommit.symm.trans herror
  · cases hcommit.symm.trans hok
    exact hbody

/-- Settles O25: a window, a full and an accepted ENQ, each in closed form. -/
theorem enqFollowsItsRule : Obligations.EnqFollowsItsRule := by
  intro s item hb hc _
  simp only [← next_eq_mod hc]
  refine ⟨portCommand_flushing _ _ _ hb, fun hf hfull => ?_, fun hf hroom => ?_⟩
  · rw [← State.reloadsReadShadow, ← producerLoaded_readShadow] at hfull
    refine (portCommand_ready _ _ _ hb hf).trans ((enqBody_of_full hfull item).trans ?_)
    rw [producerLoaded_eq]
    rfl
  · rw [← State.reloadsReadShadow, ← producerLoaded_readShadow] at hroom
    have hbody := enqBody_of_room (next_lt hc _) hroom item
    refine (portCommand_ready _ _ _ hb hf).trans (hbody.trans ?_)
    rw [← State.reloadsReadShadow, ← afterEnq_producerLoaded, producerLoaded_eq]
    rfl

/-! ## The frame -/

/-- Whatever ENQ answers, it writes no slot but the one at `inc(write)` (R141). -/
theorem execEnq_slots {s t : State} {item : Nat} (h : execEnq item s = .next t) :
    t.slots = s.slots ∨ ∃ v, t.slots = Memory.write s.slots (s.next s.write) v := by
  obtain ⟨_, ⟨_, rfl⟩ | ⟨_, h⟩⟩ := portCommand_next h
  · exact .inl rfl
  have hload : (producerLoaded s).slots = s.slots := by rw [producerLoaded_eq]
  obtain ⟨_, hbody⟩ | ⟨_, _, hbody⟩ | ⟨_, u, hu, hbody⟩ := enqBody_cases item s
  · cases hbody.symm.trans h
    exact .inl hload
  · cases hbody.symm.trans h
    exact .inl rfl
  · cases hbody.symm.trans h
    obtain ⟨_, rfl⟩ := enqCommit_eq_ok.1 hu
    exact .inr ⟨_, congrArg (Memory.write · _ _) hload⟩

/-- Settles O27: the registers by the frame of ENQ, the slots by its one store. -/
theorem enqFrame : Obligations.EnqFrame := by
  intro s t item h
  refine ⟨fun a ha => ?_, execEnq_frame h⟩
  obtain hslots | ⟨v, hslots⟩ := execEnq_slots h
  · rw [hslots]
  · rw [hslots, memory_read_write_other _ _ _ _ ha]

/-! ## ENQ in a sound state -/

/-- When `p_full = 1`, the view is a whole round behind the candidate, so no shadow is behind the
view (R142). -/
theorem nrc_eq_nrs_of_pFull {s : State} (hc : s.CapOk) (hv : s.ViewsOrdered)
    (hfull : s.pFull = true) : s.ghost.nrc = s.ghost.nrs := by
  obtain ⟨⟨hrcs, _, _, _, _, hwrc⟩, hwrite, _, _, _, hreadView, _⟩ := hv
  have hround : (s.ghost.nw + 1) % s.cap = s.ghost.nrs % s.cap := by
    rw [← hreadView, ← next_mod hc, ← hwrite]
    exact eq_of_beq hfull
  have hcap := usableCap_add_one hc
  by_contra hne
  have hdist : s.positions (s.ghost.nrs % s.cap) ((s.ghost.nw + 1) % s.cap) =
      s.ghost.nw + 1 - s.ghost.nrs := positions_mod (by omega) (by omega)
  rw [hround, positions_self (Nat.mod_lt _ (by omega))] at hdist
  omega

/-- In a sound state with `p_full = 1` the shadow equals the view, and a reload changes nothing. -/
theorem producerLoaded_of_pFull {s : State} (hc : s.CapOk) (hv : s.ViewsOrdered)
    (hfull : s.pFull = true) : producerLoaded s = s ∧ s.readShadow = s.readView := by
  have hghost := nrc_eq_nrs_of_pFull hc hv hfull
  have hshadow : s.readShadow = s.readView := by
    obtain ⟨_, _, _, _, _, hreadView, hreadShadow⟩ := hv
    rw [hreadShadow, hreadView, hghost]
  refine ⟨?_, hshadow⟩
  obtain ⟨hreload, hload⟩ | ⟨_, hload⟩ := reloadReadShadow_cases s (s.next s.write)
  · have hd := (Bool.and_eq_true_iff.1 hreload).1
    have hreg : s.rdShadow = s.rsync := by
      simpa only [State.readShadow, State.readView, hd, if_true] using hshadow
    calc producerLoaded s
        = { s with rdShadow := s.rsync, ghost := { s.ghost with nrc := s.ghost.nrs } } := hload
      _ = { s with rdShadow := s.rdShadow, ghost := { s.ghost with nrc := s.ghost.nrc } } := by
          rw [hreg, hghost]
      _ = s := rfl
  · exact hload

/-- When `p_full = 0`, an ENQ finds room: the shadow it decides on is the view, or it says that
there is room and is not reloaded (R141). -/
theorem room_of_not_pFull {s : State} (hroom : s.pFull = false) :
    s.next s.write ≠ (producerLoaded s).readShadow := by
  have hview : s.next s.write ≠ s.readView := ne_of_beq_false hroom
  rw [producerLoaded_readShadow]
  unfold State.readView at hview
  split_ifs with hd hload
  · rwa [if_pos hd] at hview
  · simp only [State.reloadsReadShadow, hd, Bool.true_and, Bool.or_eq_true, beq_iff_eq,
      not_or] at hload
    exact hload.2
  · rwa [if_neg hd] at hview

/-- In a sound state ENQ is decided by `p_full`, whatever the shadow and its policy (R142, R146). -/
theorem enqBody_eq_ite {s : State} (h : s.InstanceInv) (item : Nat) :
    enqBody item s =
      if s.pFull then answer (okOn .producer false) s
      else answer (okOn .producer true) (enqueued item (producerLoaded s)) := by
  obtain ⟨hc, _, _, hv, _, _⟩ := h
  cases hfull : s.pFull with
  | true =>
    obtain ⟨hload, hshadow⟩ := producerLoaded_of_pFull hc hv hfull
    have hpeer : s.next s.write = (producerLoaded s).readShadow := by
      rw [hload, hshadow]
      exact eq_of_beq hfull
    rw [enqBody_of_full hpeer, hload]
    rfl
  | false => exact enqBody_of_room (next_lt hc _) (room_of_not_pFull hfull) item

@[simp] theorem afterEnq_nw (g : Ghost) (dual : Bool) : (g.afterEnq dual).nw = g.nw + 1 := by
  cases dual <;> rfl

@[simp] theorem afterEnq_nr (g : Ghost) (dual : Bool) : (g.afterEnq dual).nr = g.nr := by
  cases dual <;> rfl

/-- An accepted ENQ in a sound state: the item is at `inc(write)`, `write` and NW are one on (R141,
R36). -/
theorem exec_enq_of_not_pFull {s : State} (h : s.InstanceInv) (hready : s.Ready)
    (hroom : s.pFull = false) (item : Nat) :
    ∃ t, exec (.enq item) s = .next t ∧ t.out = okOn .producer true ∧ t.cap = s.cap ∧
      t.write = s.next s.write ∧
      t.slots = Memory.write s.slots (s.next s.write) (dataField s.cfg.dw item) ∧
      t.ghost.nw = s.ghost.nw + 1 ∧ t.ghost.nr = s.ghost.nr := by
  obtain ⟨hb, hf⟩ := hready
  have hexec := (portCommand_ready .producer 0x1 _ hb hf).trans (enqBody_eq_ite h item)
  rw [hroom, producerLoaded_eq] at hexec
  exact ⟨_, hexec, rfl, rfl, rfl, rfl, afterEnq_nw .., afterEnq_nr ..⟩

/-- R37: NR never passes NW, and is at most UCAP behind it. -/
theorem items_le_usableCap {s : State} (h : s.InstanceInv) :
    s.ghost.nr ≤ s.ghost.nw ∧ s.ghost.nw - s.ghost.nr ≤ usableCap s.cap := by
  obtain ⟨_, _, _, ⟨⟨_, _, _, _, _, _⟩, _⟩, _, _⟩ := h
  omega

/-- Settles O26: ENQ is decided by `p_full`, and that there was room follows from the invariant
afterwards. -/
theorem enqIsRejectedExactlyWhenFull : Obligations.EnqIsRejectedExactlyWhenFull := by
  intro s item hinv ⟨hb, hf⟩
  have hs := hinv.2 hb
  have ⟨hc, _⟩ := hs
  obtain ⟨hle, hbound⟩ := items_le_usableCap hs
  refine ⟨hbound, ?_⟩
  cases hfull : s.pFull with
  | true =>
    have hexec := (portCommand_ready .producer 0x1 _ hb hf).trans (enqBody_eq_ite hs item)
    rw [hfull] at hexec
    exact ⟨_, hexec, rfl, iff_of_true rfl rfl, hbound, fun _ => rfl, nofun⟩
  | false =>
    obtain ⟨t, hexec, hout, hcap, hwrite, hslots, hnw, hnr⟩ :=
      exec_enq_of_not_pFull hs ⟨hb, hf⟩ hfull item
    obtain ⟨hinv', hb'⟩ := exec_keeps_inv hinv hb hexec
    obtain ⟨_, hbound'⟩ := items_le_usableCap (hinv'.2 hb')
    refine ⟨t, hexec, by rw [hout]; rfl, by simp [hout, okOn], hbound', nofun, fun _ => ?_⟩
    rw [← next_eq_mod hc, hslots, memory_read_write_same]
    rw [hnw, hnr, hcap] at hbound'
    exact ⟨by omega, by omega, hwrite, rfl⟩

end Sys2Proof.Proofs
end

section
/-!
PROOFS. DEQ in a sound state (43_dequeue R151, R152): the consumer's reload as one update, and that
DEQ is decided by `c_empty` and then takes the oldest item.
-/

namespace Sys2Proof.Proofs

open Sys2Proof Sys2Proof.Machine

/-! ## The state that DEQ decides on -/

/-- The reload writes `wr_shadow` and its ghost, and whether it is made only picks their values. -/
theorem reloadWriteShadow_eq (s : State) :
    reloadWriteShadow s =
      { s with
        wrShadow := if s.reloadsWriteShadow then s.wsync else s.wrShadow
        ghost := { s.ghost with
          nwc := if s.reloadsWriteShadow then s.ghost.nws else s.ghost.nwc } } := by
  unfold reloadWriteShadow
  split <;> rfl

theorem reloadWriteShadow_read (s : State) : (reloadWriteShadow s).read = s.read := by
  rw [reloadWriteShadow_eq]

/-- What a DEQ compares `read` with (R151, R44). -/
theorem reloadWriteShadow_writeShadow (s : State) :
    (reloadWriteShadow s).writeShadow =
      if s.cfg.isDual then
        if s.reloadsWriteShadow then s.wsync else s.wrShadow
      else s.write := by
  rw [reloadWriteShadow_eq]
  rfl

/-! ## The decision -/

/-- When `c_empty = 1`, the view is at `read`, so no shadow is behind the view (R152). -/
theorem nwc_eq_nws_of_cEmpty {s : State} (hc : s.CapOk) (hv : s.ViewsOrdered)
    (hempty : s.cEmpty = true) : s.ghost.nwc = s.ghost.nws := by
  obtain ⟨⟨_, _, _, _, _, _⟩, _, hwriteView, _, hread, _, _⟩ := hv
  have hmeet : s.ghost.nr % s.cap = s.ghost.nws % s.cap := by
    rw [← hread, ← hwriteView]
    exact eq_of_beq hempty
  have hcap := usableCap_add_one hc
  have hdist : s.positions (s.ghost.nr % s.cap) (s.ghost.nws % s.cap) =
      s.ghost.nws - s.ghost.nr := positions_mod (by omega) (by omega)
  rw [hmeet, positions_self (Nat.mod_lt _ (by omega))] at hdist
  omega

/-- In a sound state with `c_empty = 1` the shadow equals the view, and a reload changes nothing. -/
theorem reloadWriteShadow_of_cEmpty {s : State} (hc : s.CapOk) (hv : s.ViewsOrdered)
    (hempty : s.cEmpty = true) : reloadWriteShadow s = s ∧ s.writeShadow = s.writeView := by
  have hghost := nwc_eq_nws_of_cEmpty hc hv hempty
  have hshadow : s.writeShadow = s.writeView := by
    obtain ⟨_, _, hwriteView, hwriteShadow, _⟩ := hv
    rw [hwriteShadow, hwriteView, hghost]
  refine ⟨?_, hshadow⟩
  obtain ⟨hreload, hload⟩ | ⟨_, hload⟩ := reloadWriteShadow_cases s
  · have hd := (Bool.and_eq_true_iff.1 hreload).1
    have hreg : s.wrShadow = s.wsync := by
      simpa only [State.writeShadow, State.writeView, hd, if_true] using hshadow
    calc reloadWriteShadow s
        = { s with wrShadow := s.wsync, ghost := { s.ghost with nwc := s.ghost.nws } } := hload
      _ = { s with wrShadow := s.wrShadow, ghost := { s.ghost with nwc := s.ghost.nwc } } := by
          rw [hreg, hghost]
      _ = s := rfl
  · exact hload

/-- When `c_empty = 0`, a DEQ finds an item: the shadow it decides on is the view, or it says that
there is an item and is not reloaded (R151). -/
theorem item_of_not_cEmpty {s : State} (hitem : s.cEmpty = false) :
    (reloadWriteShadow s).read ≠ (reloadWriteShadow s).writeShadow := by
  have hview : s.read ≠ s.writeView := ne_of_beq_false hitem
  rw [reloadWriteShadow_writeShadow, reloadWriteShadow_read]
  unfold State.writeView at hview
  split_ifs with hd hload
  · rwa [if_pos hd] at hview
  · simp only [State.reloadsWriteShadow, hd, Bool.true_and, Bool.or_eq_true, beq_iff_eq,
      not_or] at hload
    exact hload.2
  · rwa [if_neg hd] at hview

theorem deqBody_of_cEmpty {s : State} (h : s.InstanceInv) (hempty : s.cEmpty = true) :
    deqBody s = answer (okOn .consumer false) s := by
  obtain ⟨hc, _, _, hv, _, _⟩ := h
  obtain ⟨hload, hshadow⟩ := reloadWriteShadow_of_cEmpty hc hv hempty
  have hpeer : s.read = s.writeShadow := (eq_of_beq hempty).trans hshadow.symm
  simp only [deqBody, hload]
  exact if_pos (beq_iff_eq.2 hpeer)

/-- In a sound state a DEQ whose shadow says that there is an item loads a written slot (R39,
R151). -/
theorem exists_deqCommit {s : State} (h : s.InstanceInv) (hitem : s.read ≠ s.writeShadow) :
    ∃ v, Memory.read s.slots (s.next s.read) = some v ∧ deqCommit s = .ok (dequeued s, v) := by
  obtain ⟨hc, hr, _, hv, hwritten, _⟩ := h
  obtain ⟨_, hpos⟩ := occupancy_publishRead s.slots hc hr hv hitem
  obtain ⟨v, hread⟩ := Option.isSome_iff_exists.1 (occupiedSlot_zero hc ▸ hwritten 0 hpos)
  exact ⟨v, hread, deqCommit_eq_ok_iff.2 ⟨next_lt hc _, hread, rfl⟩⟩

/-- In a sound state with `c_empty = 0` DEQ takes the oldest item (R151, R152). -/
theorem deqBody_of_item {s : State} (hcfg : s.cfg.Ok) (h : s.InstanceInv)
    (hitem : s.cEmpty = false) :
    ∃ v, Memory.read s.slots (s.next s.read) = some v ∧
      deqBody s = answer (itemOut v) (dequeued (reloadWriteShadow s)) := by
  obtain ⟨_, hloaded⟩ := (reloadWriteShadow_moves s).instanceInv hcfg h
  have hne := item_of_not_cEmpty hitem
  obtain ⟨v, hread, hcommit⟩ := exists_deqCommit hloaded hne
  have hslot : Memory.read s.slots (s.next s.read) = some v := by
    rw [reloadWriteShadow_eq] at hread
    exact hread
  refine ⟨v, hslot, ?_⟩
  obtain ⟨hempty, _⟩ | ⟨_, herror, _⟩ | ⟨_, _, _, hok, hbody⟩ := deqBody_cases s
  · exact absurd hempty hne
  · cases hcommit.symm.trans herror
  · cases hcommit.symm.trans hok
    exact hbody

end Sys2Proof.Proofs
end

section
/-!
PROOFS. The shadows are unobservable (42_enqueue R146, 43_dequeue R156): in a sound state ENQ and
DEQ are decided by the views, no other command reads a shadow, and so the outcome of every command
is, up to the shadows, a function of the state without them.
-/

namespace Sys2Proof.Proofs

open Sys2Proof Sys2Proof.Machine

/-! ## Outcomes up to the shadows -/

/-- The outcome of a command with the shadows of the next state left out. -/
def forgetShadows : Host.Outcome State Fault Refusal → Host.Outcome State Fault Refusal
  | .next t => .next t.withoutShadows
  | .fault e => .fault e
  | .refused r => .refused r

theorem forgetShadows_onInstance {s s' : State} {k k' : Host.Outcome State Fault Refusal}
    (hs : s.withoutShadows = s'.withoutShadows)
    (hk : s.built = true → s'.built = true → forgetShadows k = forgetShadows k') :
    forgetShadows (onInstance s k) = forgetShadows (onInstance s' k') := by
  have hbuilt : s.built = s'.built := congrArg (fun u => u.built) hs
  unfold onInstance
  rw [hbuilt]
  split
  · next hb => exact hk (hbuilt.trans hb) hb
  · rfl

theorem forgetShadows_onInstance_ite {s : State} {c : Bool}
    {k l k' l' : Host.Outcome State Fault Refusal} (hk : forgetShadows k = forgetShadows k')
    (hl : forgetShadows l = forgetShadows l') :
    forgetShadows (onInstance s (if c then k else l)) =
      forgetShadows (onInstance s.withoutShadows (if c then k' else l')) := by
  refine forgetShadows_onInstance rfl fun _ _ => ?_
  cases c with
  | true => exact hk
  | false => exact hl

theorem forgetShadows_raise {s s' : State} (hs : s.withoutShadows = s'.withoutShadows)
    (k : ErrorKind) (a : Agent) (op : Nat) :
    forgetShadows (.next (raise k a op s)) = forgetShadows (.next (raise k a op s')) :=
  congrArg (fun u => Host.Outcome.next (raise k a op u)) hs

theorem forgetShadows_portCommand {s s' : State} {k k' : Host.Outcome State Fault Refusal}
    (a : Agent) (op : Nat) (hs : s.withoutShadows = s'.withoutShadows)
    (hk : s.built = true → s'.built = true → forgetShadows k = forgetShadows k') :
    forgetShadows (portCommand a op s k) = forgetShadows (portCommand a op s' k') := by
  refine forgetShadows_onInstance hs fun hb hb' => ?_
  have hflushing : s.flushing = s'.flushing := congrArg (fun u => u.flushing) hs
  rw [hflushing]
  split
  · exact forgetShadows_raise hs _ a op
  · exact hk hb hb'

theorem forgetShadows_answer {s s' : State} (hs : s.withoutShadows = s'.withoutShadows)
    (o : Outputs) : forgetShadows (answer o s) = forgetShadows (answer o s') :=
  congrArg (answer o) hs

theorem forgetShadows_onNoInstance {s s' : State} {k k' : Host.Outcome State Fault Refusal}
    (hs : s.withoutShadows = s'.withoutShadows) (hk : forgetShadows k = forgetShadows k') :
    forgetShadows (onNoInstance s k) = forgetShadows (onNoInstance s' k') := by
  have hbuilt : s.built = s'.built := congrArg (fun u => u.built) hs
  unfold onNoInstance
  rw [hbuilt]
  split
  · rfl
  · exact hk

/-! ## ENQ and DEQ up to the shadows -/

/-- The ghosts without those of the shadows, as `State.withoutShadows` leaves them. -/
def ghostWithoutShadows (g : Ghost) : Ghost := { g with nrc := 0, nwc := 0 }

theorem ghostWithoutShadows_afterEnq (g : Ghost) (dual : Bool) :
    ghostWithoutShadows (g.afterEnq dual) =
      ghostWithoutShadows ((ghostWithoutShadows g).afterEnq dual) := by
  cases dual <;> rfl

theorem ghostWithoutShadows_afterDeq (g : Ghost) (dual : Bool) :
    ghostWithoutShadows (g.afterDeq dual) =
      ghostWithoutShadows ((ghostWithoutShadows g).afterDeq dual) := by
  cases dual <;> rfl

theorem withoutShadows_enqueued (item : Nat) (s : State) :
    (enqueued item s).withoutShadows = (enqueued item s.withoutShadows).withoutShadows :=
  congrArg (fun g => { (enqueued item s.withoutShadows).withoutShadows with ghost := g })
    (ghostWithoutShadows_afterEnq s.ghost s.cfg.isDual)

theorem withoutShadows_dequeued (s : State) :
    (dequeued s).withoutShadows = (dequeued s.withoutShadows).withoutShadows :=
  congrArg (fun g => { (dequeued s.withoutShadows).withoutShadows with ghost := g })
    (ghostWithoutShadows_afterDeq s.ghost s.cfg.isDual)

theorem withoutShadows_producerLoaded (s : State) :
    (producerLoaded s).withoutShadows = s.withoutShadows := by
  rw [producerLoaded_eq]
  rfl

theorem withoutShadows_reloadWriteShadow (s : State) :
    (reloadWriteShadow s).withoutShadows = s.withoutShadows := by
  rw [reloadWriteShadow_eq]
  rfl

/-- What an accepted ENQ leaves is, up to the shadows, a function of the state without them. -/
theorem withoutShadows_accepted (item : Nat) (s : State) :
    (enqueued item (producerLoaded s)).withoutShadows =
      (enqueued item s.withoutShadows).withoutShadows := by
  rw [withoutShadows_enqueued, withoutShadows_producerLoaded]

/-- What a successful DEQ leaves is, up to the shadows, a function of the state without them. -/
theorem withoutShadows_taken (s : State) :
    (dequeued (reloadWriteShadow s)).withoutShadows =
      (dequeued s.withoutShadows).withoutShadows := by
  rw [withoutShadows_dequeued, withoutShadows_reloadWriteShadow]

section Pair

variable {s s' : State} (hinv : s.Inv) (hinv' : s'.Inv) (hs : s.withoutShadows = s'.withoutShadows)

include hinv hinv' hs

theorem forgetShadows_exec_enq (item : Nat) :
    forgetShadows (exec (.enq item) s) = forgetShadows (exec (.enq item) s') := by
  refine forgetShadows_portCommand .producer 0x1 hs fun hb hb' => ?_
  have hfull : s.pFull = s'.pFull := congrArg (fun u => u.pFull) hs
  rw [enqBody_eq_ite (hinv.2 hb), enqBody_eq_ite (hinv'.2 hb'), hfull]
  split
  · exact forgetShadows_answer hs _
  · refine forgetShadows_answer ?_ _
    rw [withoutShadows_accepted, withoutShadows_accepted, hs]

theorem forgetShadows_exec_deq :
    forgetShadows (exec .deq s) = forgetShadows (exec .deq s') := by
  refine forgetShadows_portCommand .consumer 0x2 hs fun hb hb' => ?_
  have hempty : s.cEmpty = s'.cEmpty := congrArg (fun u => u.cEmpty) hs
  cases he : s'.cEmpty with
  | true =>
    rw [deqBody_of_cEmpty (hinv.2 hb) (hempty.trans he), deqBody_of_cEmpty (hinv'.2 hb') he]
    exact forgetShadows_answer hs _
  | false =>
    obtain ⟨v, hread, hbody⟩ := deqBody_of_item hinv.1 (hinv.2 hb) (hempty.trans he)
    obtain ⟨v', hread', hbody'⟩ := deqBody_of_item hinv'.1 (hinv'.2 hb') he
    have hslot : Memory.read s.slots (s.next s.read) = Memory.read s'.slots (s'.next s'.read) :=
      congrArg (fun u => Memory.read u.slots (u.next u.read)) hs
    rw [hread, hread'] at hslot
    cases hslot
    rw [hbody, hbody']
    refine forgetShadows_answer ?_ _
    rw [withoutShadows_taken, withoutShadows_taken, hs]

end Pair

/-! ## Every command -/

/-- ENQ and DEQ read the shadows; every other command copies them or sets them anew. -/
theorem forgetShadows_exec_of_unshadowed {i : Instr} (henq : ∀ x, i ≠ .enq x) (hdeq : i ≠ .deq)
    (s : State) : forgetShadows (exec i s) = forgetShadows (exec i s.withoutShadows) := by
  cases i with
  | enq x => exact absurd rfl (henq x)
  | deq => exact absurd rfl hdeq
  | nopP | nopC | hnop => exact forgetShadows_onInstance rfl fun _ _ => rfl
  | lenP | isEmptyP | isFullP | capP | dbgP =>
    exact forgetShadows_portCommand .producer _ rfl fun _ _ => rfl
  | lenC | isEmptyC | isFullC | capC | dbgC =>
    exact forgetShadows_portCommand .consumer _ rfl fun _ _ => rfl
  | flushBegin | reset => exact forgetShadows_onInstance rfl fun _ _ => rfl
  | flushEnd | syncW2r | syncR2w => exact forgetShadows_onInstance_ite rfl rfl
  | construct hint =>
    refine forgetShadows_onNoInstance rfl ?_
    rw [show s.withoutShadows.cfg.w = s.cfg.w from rfl]
    cases nextPow2 s.cfg.w hint with
    | error e => rfl
    | ok cap => rfl
  | constructFrom init =>
    refine forgetShadows_onNoInstance rfl ?_
    rw [show s.withoutShadows.cfg.w = s.cfg.w from rfl]
    cases nextPow2 s.cfg.w init.length with
    | error e => rfl
    | ok cap =>
      by_cases hlong : init.length > usableCap cap
      · simp only [if_pos hlong]
      · simp only [if_neg hlong]
        rfl
  | illegalPDeq | reservedP | illegalCEnq | reservedC =>
    exact forgetShadows_onInstance rfl fun _ _ => rfl

theorem forgetShadows_eq_next {o : Host.Outcome State Fault Refusal} {u : State}
    (h : forgetShadows o = .next u) : ∃ t, o = .next t ∧ t.withoutShadows = u := by
  cases o with
  | next t => exact ⟨t, rfl, Host.Outcome.next.inj h⟩
  | fault | refused => cases h

/-- Sound states that differ in the shadows and the policy only answer every command alike, up to
these. -/
theorem forgetShadows_exec {s s' : State} (hinv : s.Inv) (hinv' : s'.Inv)
    (hs : s.withoutShadows = s'.withoutShadows) (i : Instr) :
    forgetShadows (exec i s) = forgetShadows (exec i s') := by
  by_cases henq : ∃ x, i = .enq x
  · obtain ⟨x, rfl⟩ := henq
    exact forgetShadows_exec_enq hinv hinv' hs x
  by_cases hdeq : i = .deq
  · subst hdeq
    exact forgetShadows_exec_deq hinv hinv' hs
  have hother := forgetShadows_exec_of_unshadowed (fun x hx => henq ⟨x, hx⟩) hdeq
  rw [hother, hs, ← hother]

/-- Settles O58: the results are part of the state without the shadows, so it is enough that the two
next states agree up to the shadows. -/
theorem shadowPolicyIsUnobservable : Obligations.ShadowPolicyIsUnobservable := by
  intro s s' t i hinv hinv' hs h
  have hforget : forgetShadows (exec i s') = .next t.withoutShadows := by
    rw [← forgetShadows_exec hinv hinv' hs i, h]
    rfl
  obtain ⟨t', ht', hagree⟩ := forgetShadows_eq_next hforget
  exact ⟨t', ht', congrArg (fun u => u.out) hagree, hagree.symm⟩

end Sys2Proof.Proofs
end

section
/-!
PROOFS. DEQ (43_dequeue R151, R152): DEQ in closed form when it is empty, when the slot is unwritten
and when it takes an item, what it leaves unchanged, and that in a sound state it fails exactly when
`c_empty = 1`.
-/

namespace Sys2Proof.Proofs

open Sys2Proof Sys2Proof.Machine

/-! ## DEQ after its checks -/

/-- The reload leaves the slot that the DEQ takes alone, its index and its contents. -/
theorem read_slots_reloadWriteShadow (s : State) :
    Memory.read (reloadWriteShadow s).slots
        ((reloadWriteShadow s).next (reloadWriteShadow s).read) =
      Memory.read s.slots (s.next s.read) := by
  rw [reloadWriteShadow_eq]
  rfl

theorem reloadWriteShadow_next_read_lt {s : State} (hlt : s.next s.read < s.cap) :
    (reloadWriteShadow s).next (reloadWriteShadow s).read < (reloadWriteShadow s).cap := by
  rw [reloadWriteShadow_eq]
  exact hlt

/-- The ghosts after a reload and a successful DEQ (R36); with one clock there is no reload. -/
theorem afterDeq_reloadWriteShadow (s : State) :
    (reloadWriteShadow s).ghost.afterDeq s.cfg.isDual =
      if s.cfg.isDual then
        { s.ghost with
          nwc := if s.reloadsWriteShadow then s.ghost.nws else s.ghost.nwc
          nr := s.ghost.nr + 1 }
      else
        { s.ghost with
          nr := s.ghost.nr + 1, nrs := s.ghost.nrs + 1, nrc := s.ghost.nrc + 1 } := by
  rw [reloadWriteShadow_eq]
  cases hd : s.cfg.isDual with
  | true => rfl
  | false => simp [Ghost.afterDeq, State.reloadsWriteShadow, hd]

/-- A load of an unwritten slot ends a DEQ before it stores anything (R55). -/
theorem deqCommit_of_unwritten {s : State} (hlt : s.next s.read < s.cap)
    (hnone : Memory.read s.slots (s.next s.read) = none) :
    deqCommit s = .error (.unwrittenSlot (s.next s.read)) := by
  have hload : slotRead s (s.next s.read) = .error (.unwrittenSlot (s.next s.read)) := by
    rw [slotRead, if_neg hlt.not_ge, hnone]
  rw [deqCommit, hload]

theorem deqBody_of_empty {s : State} (hempty : s.read = (reloadWriteShadow s).writeShadow) :
    deqBody s = answer (okOn .consumer false) (reloadWriteShadow s) :=
  if_pos (beq_iff_eq.2 ((reloadWriteShadow_read s).trans hempty))

section Loaded

variable {s : State} (hlt : s.next s.read < s.cap)
  (hitem : s.read ≠ (reloadWriteShadow s).writeShadow)

include hlt hitem

/-- An error discards the reload with the step's other writes (R14). -/
theorem deqBody_of_unwritten (hnone : Memory.read s.slots (s.next s.read) = none) :
    deqBody s = .next (raise (.unwrittenSlot (s.next s.read)) .consumer 0x2 s) := by
  have hcommit : deqCommit (reloadWriteShadow s) = .error (.unwrittenSlot (s.next s.read)) := by
    rw [deqCommit_of_unwritten (reloadWriteShadow_next_read_lt hlt)
      ((read_slots_reloadWriteShadow s).trans hnone), reloadWriteShadow_eq]
    rfl
  obtain ⟨hempty, _⟩ | ⟨_, herror, hbody⟩ | ⟨_, _, _, hok, _⟩ := deqBody_cases s
  · exact absurd ((reloadWriteShadow_read s).symm.trans hempty) hitem
  · cases hcommit.symm.trans herror
    exact hbody
  · cases hcommit.symm.trans hok

theorem deqBody_of_written {item : Nat} (hread : Memory.read s.slots (s.next s.read) = some item) :
    deqBody s = answer (itemOut item) (dequeued (reloadWriteShadow s)) := by
  have hcommit : deqCommit (reloadWriteShadow s) = .ok (dequeued (reloadWriteShadow s), item) :=
    deqCommit_eq_ok_iff.2 ⟨reloadWriteShadow_next_read_lt hlt,
      (read_slots_reloadWriteShadow s).trans hread, rfl⟩
  obtain ⟨hempty, _⟩ | ⟨_, herror, _⟩ | ⟨_, _, _, hok, hbody⟩ := deqBody_cases s
  · exact absurd ((reloadWriteShadow_read s).symm.trans hempty) hitem
  · cases hcommit.symm.trans herror
  · cases hcommit.symm.trans hok
    exact hbody

end Loaded

/-- Settles O28: a window, an empty DEQ, one that meets an unwritten slot and one that takes an
item, each in closed form. -/
theorem deqFollowsItsRule : Obligations.DeqFollowsItsRule := by
  intro s item hb hc _
  have hlt := next_lt hc s.read
  have hpeer := reloadWriteShadow_writeShadow s
  rw [State.reloadsWriteShadow] at hpeer
  simp only [← next_eq_mod hc, ← hpeer]
  refine ⟨portCommand_flushing _ _ _ hb, fun hf hempty => ?_, fun hf hitem hnone => ?_,
    fun hf hitem hread => ?_⟩
  · refine (portCommand_ready _ _ _ hb hf).trans ((deqBody_of_empty hempty).trans ?_)
    rw [reloadWriteShadow_eq]
    rfl
  · exact (portCommand_ready _ _ _ hb hf).trans (deqBody_of_unwritten hlt hitem hnone)
  · refine (portCommand_ready _ _ _ hb hf).trans ((deqBody_of_written hlt hitem hread).trans ?_)
    rw [← State.reloadsWriteShadow, ← afterDeq_reloadWriteShadow, reloadWriteShadow_eq]
    rfl

/-! ## The frame -/

/-- Whatever DEQ answers, it writes no slot but the one at `inc(read)` (R151, R154). -/
theorem execDeq_read_slots {s t : State} (h : execDeq s = .next t) {a : Nat}
    (ha : a ≠ s.next s.read) : Memory.read t.slots a = Memory.read s.slots a := by
  obtain ⟨_, ⟨_, rfl⟩ | ⟨_, h⟩⟩ := portCommand_next h
  · rfl
  obtain ⟨_, hbody⟩ | ⟨_, _, hbody⟩ | ⟨_, u, _, hu, hbody⟩ := deqBody_cases s
  · cases hbody.symm.trans h
    rw [reloadWriteShadow_eq]
  · cases hbody.symm.trans h
    rfl
  · cases hbody.symm.trans h
    obtain ⟨_, _, rfl⟩ := deqCommit_eq_ok_iff.1 hu
    rw [reloadWriteShadow_eq]
    exact read_takenSlots ha

/-- Settles O30: the registers by the frame of DEQ, the slots by its one store. -/
theorem deqFrame : Obligations.DeqFrame :=
  fun _ _ h => ⟨fun _ => execDeq_read_slots h, execDeq_frame h⟩

/-! ## DEQ in a sound state -/

/-- When the consumer sees an item, there is one: its view is not ahead of `write` (R37, R152). -/
theorem occupancy_pos_of_not_cEmpty {s : State} (hc : s.CapOk) (hv : s.ViewsOrdered)
    (hitem : s.cEmpty = false) : 0 < s.occupancy := by
  have ⟨⟨_, _, hrwc, hwcs, _, _⟩, _, hwriteView, _, hread, _, _⟩ := hv
  have hview : s.ghost.nr % s.cap ≠ s.ghost.nws % s.cap := by
    rw [← hread, ← hwriteView]
    exact ne_of_beq_false hitem
  have hone := one_le_sub_of_mod_ne (hrwc.trans hwcs) hview
  rw [occupancy_eq hc hv]
  omega

/-- Settles O29: DEQ is decided by `c_empty`. -/
theorem deqFailsExactlyWhenEmpty : Obligations.DeqFailsExactlyWhenEmpty := by
  intro s hinv ⟨hb, hf⟩
  have hs := hinv.2 hb
  have ⟨hc, _, _, hv, _, _⟩ := hs
  have hready := portCommand_ready .consumer 0x2 (deqBody s) hb hf
  cases hempty : s.cEmpty with
  | true =>
    exact ⟨_, hready.trans (deqBody_of_cEmpty hs hempty), rfl, iff_of_true rfl rfl, fun _ => rfl,
      nofun⟩
  | false =>
    obtain ⟨v, hread, hbody⟩ := deqBody_of_item hinv.1 hs hempty
    rw [reloadWriteShadow_eq] at hbody
    refine ⟨_, hready.trans hbody, rfl, iff_of_false nofun nofun, nofun, fun _ => ?_⟩
    rw [← next_eq_mod hc]
    exact ⟨occupancy_pos_of_not_cEmpty hc hv hempty, rfl, hread⟩

end Sys2Proof.Proofs
end

section
/-!
PROOFS. CLEAR_ON_READ and the slots are unobservable (20_memory R62, 43_dequeue R154): a command
answers alike whatever the slots hold, but for the item of a DEQ, and that is the head of the queue.
-/

namespace Sys2Proof.Proofs

open Sys2Proof Sys2Proof.Machine

/-! ## Outcomes up to the slots -/

/-- The state with another slot array and another choice of CLEAR_ON_READ (R154). -/
def withSlots (s : State) (m : Memory) (clear : Bool) : State :=
  { s with cfg := { s.cfg with clearOnRead := clear }, slots := m }

theorem eq_withSlots {s s' : State} (hs : s.withoutSlots = s'.withoutSlots) :
    s' = withSlots s s'.slots s'.cfg.clearOnRead := by
  have h := congrArg (withSlots · s'.slots s'.cfg.clearOnRead) hs
  exact h.symm

/-- If the outcome `o` is a next state, `o'` is that state with some slots and the choice
`clear`. -/
def SameButSlots (clear : Bool) (o o' : Host.Outcome State Fault Refusal) : Prop :=
  ∀ t, o = .next t → ∃ m, o' = .next (withSlots t m clear)

theorem SameButSlots.next (s : State) (m : Memory) (clear : Bool) :
    SameButSlots clear (.next s) (.next (withSlots s m clear)) := by
  rintro _ ⟨⟩
  exact ⟨m, rfl⟩

theorem SameButSlots.refused (clear : Bool) (r : Refusal) (o' : Host.Outcome State Fault Refusal) :
    SameButSlots clear (.refused r) o' := nofun

section Carried

variable {s : State} (m : Memory) {clear : Bool} {k k' : Host.Outcome State Fault Refusal}

theorem SameButSlots.onInstance (hk : s.built = true → SameButSlots clear k k') :
    SameButSlots clear (onInstance s k) (onInstance (withSlots s m clear) k') := by
  intro t h
  obtain ⟨hb, h⟩ := onInstance_next h
  rw [onInstance_built (s := withSlots s m clear) _ hb]
  exact hk hb t h

theorem SameButSlots.onInstance_ite {l l' : Host.Outcome State Fault Refusal} {c : Bool}
    (hk : SameButSlots clear k k') (hl : SameButSlots clear l l') :
    SameButSlots clear (Machine.onInstance s (if c then k else l))
      (Machine.onInstance (withSlots s m clear) (if c then k' else l')) := by
  refine .onInstance m fun _ => ?_
  cases c with
  | true => exact hk
  | false => exact hl

theorem SameButSlots.portCommand (a : Agent) (op : Nat)
    (hk : s.built = true → SameButSlots clear k k') :
    SameButSlots clear (portCommand a op s k) (portCommand a op (withSlots s m clear) k') := by
  refine .onInstance m fun hb => ?_
  rw [show (withSlots s m clear).flushing = s.flushing from rfl]
  split
  · exact .next (raise .flushRace a op s) m clear
  · exact hk hb

end Carried

/-! ## ENQ and DEQ up to the slots -/

/-- The oldest item is in the slot that the next DEQ takes (R39). -/
theorem queue_head?_of_occupancy_pos {s : State} (hc : s.CapOk) (hpos : 0 < s.occupancy) :
    s.queue.head? = some ((Memory.read s.slots (s.next s.read)).getD zeroDatum) := by
  obtain ⟨n, hn⟩ := Nat.exists_eq_add_one.2 hpos
  rw [State.queue, hn, List.range_succ_eq_map, List.map_cons, occupiedSlot_zero hc]
  rfl

section Pair

variable {s : State} {m : Memory} {clear : Bool} (hinv : s.Inv) (hinv' : (withSlots s m clear).Inv)

include hinv hinv'

theorem exec_enq_sameButSlots (item : Nat) :
    SameButSlots clear (exec (.enq item) s) (exec (.enq item) (withSlots s m clear)) := by
  refine .portCommand m .producer 0x1 fun hb => ?_
  rw [enqBody_eq_ite (hinv.2 hb), enqBody_eq_ite (hinv'.2 hb),
    show (withSlots s m clear).pFull = s.pFull from rfl]
  split
  · exact .next { s with out := okOn .producer false } m clear
  · rw [producerLoaded_eq, producerLoaded_eq]
    exact .next _ _ clear

theorem exec_deq_sameButSlots (hqueue : s.queue = (withSlots s m clear).queue) :
    SameButSlots clear (exec .deq s) (exec .deq (withSlots s m clear)) := by
  refine .portCommand m .consumer 0x2 fun hb => ?_
  have hs := hinv.2 hb
  have hs' := hinv'.2 hb
  cases hempty : s.cEmpty with
  | true =>
    rw [deqBody_of_cEmpty hs hempty, deqBody_of_cEmpty hs' hempty]
    exact .next { s with out := okOn .consumer false } m clear
  | false =>
    obtain ⟨v, hread, hbody⟩ := deqBody_of_item hinv.1 hs hempty
    obtain ⟨v', hread', hbody'⟩ := deqBody_of_item hinv'.1 hs' hempty
    have ⟨hc, _, _, hviews, _, _⟩ := hs
    have ⟨hc', _⟩ := hs'
    have hpos := occupancy_pos_of_not_cEmpty hc hviews hempty
    have hhead := congrArg List.head? hqueue
    rw [queue_head?_of_occupancy_pos hc hpos, queue_head?_of_occupancy_pos hc' hpos, hread,
      hread'] at hhead
    cases hhead
    rw [hbody, hbody', reloadWriteShadow_eq, reloadWriteShadow_eq]
    exact .next _ _ clear

end Pair

/-! ## Every command -/

/-- On an instance ENQ and DEQ use the slots; any other command copies them or fills them anew. -/
theorem exec_sameButSlots_of_slotless {s : State} (hb : s.built = true) {i : Instr}
    (henq : ∀ x, i ≠ .enq x) (hdeq : i ≠ .deq) (m : Memory) (clear : Bool) :
    SameButSlots clear (exec i s) (exec i (withSlots s m clear)) := by
  cases i with
  | enq x => exact absurd rfl (henq x)
  | deq => exact absurd rfl hdeq
  | nopP | nopC | hnop | flushBegin | reset => exact .onInstance m fun _ => .next _ _ _
  | lenP | isEmptyP | isFullP | capP | dbgP =>
    exact .portCommand m .producer _ fun _ => .next _ _ _
  | lenC | isEmptyC | isFullC | capC | dbgC =>
    exact .portCommand m .consumer _ fun _ => .next _ _ _
  | flushEnd => exact .onInstance_ite m (.next _ _ _) (.next _ _ _)
  | syncW2r | syncR2w => exact .onInstance_ite m (.next _ _ _) (.refused _ _ _)
  | construct | constructFrom =>
    exact fun _ h => absurd hb (Bool.eq_false_iff.1 (onNoInstance_next h).1)
  | illegalPDeq | reservedP | illegalCEnq | reservedC => exact .onInstance m fun _ => .next _ _ _

/-- Sound states of one instance that differ in the slots and CLEAR_ON_READ only, and hold the same
queue, answer every command alike, up to these. -/
theorem exec_sameButSlots {s : State} {m : Memory} {clear : Bool} (hinv : s.Inv)
    (hinv' : (withSlots s m clear).Inv) (hb : s.built = true)
    (hqueue : s.queue = (withSlots s m clear).queue) (i : Instr) :
    SameButSlots clear (exec i s) (exec i (withSlots s m clear)) := by
  by_cases henq : ∃ x, i = .enq x
  · obtain ⟨x, rfl⟩ := henq
    exact exec_enq_sameButSlots hinv hinv' x
  by_cases hdeq : i = .deq
  · subst hdeq
    exact exec_deq_sameButSlots hinv hinv' hqueue
  exact exec_sameButSlots_of_slotless hb (fun x hx => henq ⟨x, hx⟩) hdeq m clear

/-- Construction fills the slots whatever they held (R41). -/
theorem exec_withSlots_of_unbuilt {s t : State} (hb : s.built = false) {i : Instr}
    (h : exec i s = .next t) (m : Memory) (clear : Bool) :
    exec i (withSlots s m clear) = .next (withSlots t t.slots clear) := by
  cases i with
  | construct hint =>
    obtain ⟨_, h⟩ := onNoInstance_next h
    split at h
    · cases h
    · next cap hcap =>
      cases h
      exact exec_construct (s := withSlots s m clear) hb hcap
  | constructFrom init =>
    obtain ⟨cap, hcap, hfits, rfl⟩ := exec_constructFrom_next h
    exact exec_constructFrom_of_fits (s := withSlots s m clear) hb hcap hfits
  | _ => exact nomatch (onInstance_unbuilt _ hb).symm.trans h

/-- What a command does to the queue is given by its results and by what is no slot (R71). -/
theorem exec_queue_congr {s s' t t' : State} {i : Instr} (hinv : s.Inv) (hinv' : s'.Inv)
    (hb : s.built = true) (hs : s.withoutSlots = s'.withoutSlots) (hqueue : s.queue = s'.queue)
    (h : exec i s = .next t) (h' : exec i s' = .next t') (hout : t.out = t'.out) :
    t.queue = t'.queue := by
  have hsame {α : Type} (f : State → α) : f s.withoutSlots = f s'.withoutSlots := congrArg f hs
  have hb' : s'.built = true := (hsame (·.built)).symm.trans hb
  have hdw : s.cfg.dw = s'.cfg.dw := hsame (·.cfg.dw)
  obtain ⟨hpush, hpop, hreset, hflush, hkeep, _⟩ := commandsRefineAQueue s t hinv hb
  obtain ⟨hpush', hpop', hreset', hflush', hkeep', _⟩ := commandsRefineAQueue s' t' hinv' hb'
  have hstay (hset : setsCursors i = false) (henq : ∀ x, i ≠ .enq x) (hdeq : i ≠ .deq) :
      t.queue = t'.queue := by
    rw [hkeep i hset henq hdeq h, hkeep' i hset henq hdeq h', hqueue]
  cases i with
  | enq item => rw [hpush item h, hpush' item h', hqueue, hout, hdw]
  | deq =>
    have hitem := (hpop h).symm.trans (hqueue.trans (hpop' h'))
    rw [hout] at hitem
    exact List.append_cancel_left hitem
  | reset => rw [hreset h, hreset' h', hdw, show s.init = s'.init from hsame (·.init)]
  | flushEnd =>
    rw [hflush h, hflush' h', hqueue, show s.flushing = s'.flushing from hsame (·.flushing)]
  | construct | constructFrom => exact absurd hb (Bool.eq_false_iff.1 (onNoInstance_next h).1)
  | _ => exact hstay rfl nofun nofun

/-- Settles O59: an instance answers alike up to the slots, and the queue then follows the results;
construction answers alike with the same slots. -/
theorem clearingIsUnobservable : Obligations.ClearingIsUnobservable := by
  intro s s' t i hinv hinv' hs hqueue h
  cases hb : s.built with
  | false =>
    rw [eq_withSlots hs]
    exact ⟨_, exec_withSlots_of_unbuilt hb h _ _, rfl, rfl, rfl⟩
  | true =>
    have heq := eq_withSlots hs
    obtain ⟨m, h'⟩ := exec_sameButSlots hinv (heq ▸ hinv') hb (heq ▸ hqueue) i t h
    rw [← heq] at h'
    exact ⟨_, h', rfl, rfl, exec_queue_congr hinv hinv' hb hs hqueue h h' rfl⟩

end Sys2Proof.Proofs
end

section
/-!
PROOFS. The status commands (44_status R160 to R168): what LEN, CAP and DBG answer on each port, that no
status command writes state, and how the answers bound the true number of items.
-/

namespace Sys2Proof.Proofs

open Sys2Proof Sys2Proof.Machine

/-! ## CAP -/

/-- Settles O33: a port command that answers the constant UCAP. -/
theorem capReportsTheUsableCapacity : Obligations.CapReportsTheUsableCapacity := fun _ hb =>
  ⟨fun hf => ⟨portCommand_ready .producer 0x6 _ hb hf, portCommand_ready .consumer 0x6 _ hb hf⟩,
    fun hf =>
      ⟨portCommand_flushing .producer 0x6 _ hb hf, portCommand_flushing .consumer 0x6 _ hb hf⟩⟩

/-! ## No state is written -/

/-- What R161 says of a command: it changes the results alone, and in a flush window at most `fault` by
one FlushRace entry; taken again, it gives the same results. -/
def OnlyAnswers (command : State → Host.Outcome State Fault Refusal) : Prop :=
  ∀ s t, command s = .next t →
    (s.flushing = false → t = { s with out := t.out }) ∧
    (s.flushing = true → t = { s with fault := t.fault, out := t.out } ∧
      (t.fault = s.fault ∨ ∃ a op,
        t.fault = s.fault ++ [{ kind := .flushRace, agent := a, opcode := op }])) ∧
    ∃ u, command t = .next u ∧ u.out = t.out

theorem onlyAnswers_nopOn : OnlyAnswers nopOn := by
  intro s t h
  obtain ⟨hb, h⟩ := onInstance_next h
  cases h
  exact ⟨fun _ => rfl, fun _ => ⟨rfl, .inl rfl⟩, _, onInstance_built _ hb, rfl⟩

/-- A port command whose answer does not depend on the results of the step before. -/
theorem onlyAnswers_portCommand (a : Agent) (op : Nat) (o : State → Outputs)
    (ho : ∀ s x, o (showing x s) = o s) :
    OnlyAnswers fun s => portCommand a op s (answer (o s) s) := by
  intro s t h
  obtain ⟨hb, ⟨hf, rfl⟩ | ⟨hf, h⟩⟩ := portCommand_next h
  · exact ⟨fun hf' => absurd hf (Bool.eq_false_iff.1 hf'), fun _ => ⟨rfl, .inr ⟨a, op, rfl⟩⟩, _,
      portCommand_flushing a op _ hb hf, rfl⟩
  · cases h
    exact ⟨fun _ => rfl, fun hf' => absurd hf' (Bool.eq_false_iff.1 hf), _,
      portCommand_ready a op _ hb hf, ho s (o s)⟩

theorem onlyAnswers_exec {i : Instr} (hstatus : isStatus i = true) : OnlyAnswers (exec i) := by
  cases i with
  | nopP | nopC => exact onlyAnswers_nopOn
  | lenP | isEmptyP | isFullP | capP | dbgP =>
    refine onlyAnswers_portCommand .producer _ _ ?_
    exact fun _ _ => rfl
  | lenC | isEmptyC | isFullC | capC | dbgC =>
    refine onlyAnswers_portCommand .consumer _ _ ?_
    exact fun _ _ => rfl
  | _ => cases hstatus

/-- Settles O35: NOP answers zeros, every other status command a function of the cursors. -/
theorem statusCommandsWriteNoState : Obligations.StatusCommandsWriteNoState :=
  fun s t _ hstatus => onlyAnswers_exec hstatus s t

/-! ## Views and predicates in range -/

theorem readView_lt {s : State} (hr : s.InRange) : s.readView < s.cap := by
  obtain ⟨_, hread, _, _, hrsync, _⟩ := hr
  unfold State.readView
  split
  · exact hrsync
  · exact hread

theorem writeView_lt {s : State} (hr : s.InRange) : s.writeView < s.cap := by
  obtain ⟨hwrite, _, _, _, _, hwsync⟩ := hr
  unfold State.writeView
  split
  · exact hwsync
  · exact hwrite

/-- CAP is a `W`-bit number (R7, R103). -/
theorem cap_lt_two_pow {s : State} (hc : s.CapOk) : s.cap < 2 ^ s.cfg.w := by
  obtain ⟨hcap, _, haw, _⟩ := hc
  rw [hcap]
  exact Nat.pow_lt_pow_right (by decide) (by omega)

theorem len_le_usableCap (w cap r v : Nat) : len w cap r v ≤ usableCap cap := Nat.and_le_right

/-- The predicates of two cursor values of an instance (R109). -/
theorem predicates_iff_len {s : State} (hc : s.CapOk) {r v : Nat} (hr : r < s.cap) (hv : v < s.cap) :
    (isEmpty r v = true ↔ len s.cfg.w s.cap r v = 0) ∧
      (isFull s.cfg.w s.cap r v = true ↔ len s.cfg.w s.cap r v = usableCap s.cap) ∧
      ¬ (isEmpty r v = true ∧ isFull s.cfg.w s.cap r v = true) := by
  obtain ⟨hcap, h1aw, haw, _⟩ := hc
  have h := predicatesAgreeWithLen s.cfg.w (addrWidth s.cap) r v h1aw haw (hcap ▸ hr) (hcap ▸ hv)
  rwa [← hcap] at h

/-! ## The DBG word -/

theorem concatBits_mod (n a b : Nat) : concatBits n a b % 2 ^ n = b % 2 ^ n := by
  rw [concatBits, Nat.mul_add_mod_self_right, Nat.mod_mod]

theorem concatBits_div (n a b : Nat) : concatBits n a b / 2 ^ n = a := by
  rw [concatBits, Nat.mul_comm, Nat.mul_add_div (Nat.two_pow_pos n),
    Nat.div_eq_of_lt (Nat.mod_lt _ (Nat.two_pow_pos n)), Nat.add_zero]

theorem concatBits_div_add (n k a b : Nat) : concatBits n a b / 2 ^ (n + k) = a / 2 ^ k := by
  rw [Nat.pow_add, ← Nat.div_div_eq_div_mul, concatBits_div]

theorem concatBits_lt {m a : Nat} (n b : Nat) (ha : a < 2 ^ m) : concatBits n a b < 2 ^ (m + n) := by
  rw [Nat.pow_add, ← Nat.div_lt_iff_lt_mul (Nat.two_pow_pos n), concatBits_div]
  exact ha

/-- The two flags at the top of the DBG word, `{ full, empty }` (R166). -/
theorem concatBits_flags (full empty : Bool) :
    concatBits 1 (bit full) (bit empty) < 2 ^ 2 ∧
      (concatBits 1 (bit full) (bit empty)).testBit 0 = empty ∧
      (concatBits 1 (bit full) (bit empty)).testBit 1 = full := by
  cases full <;> cases empty <;> decide

section Word

variable (w cap rv wv : Nat)

theorem dbgWord_lt : dbgWord w cap rv wv < 2 ^ (4 * w + 2) := by
  have hflags := (concatBits_flags (isFull w cap rv wv) (isEmpty rv wv)).1
  rw [show 4 * w + 2 = 2 + w + w + w + w by omega]
  exact concatBits_lt w _ (concatBits_lt w _ (concatBits_lt w _ (concatBits_lt w _ hflags)))

theorem dbgWord_wr : dbgWord w cap rv wv % 2 ^ w = wv % 2 ^ w := concatBits_mod ..

theorem dbgWord_rd : dbgWord w cap rv wv / 2 ^ w % 2 ^ w = rv % 2 ^ w := by
  rw [dbgWord, concatBits_div, concatBits_mod]

theorem dbgWord_size :
    dbgWord w cap rv wv / 2 ^ (2 * w) % 2 ^ w = len w cap rv wv % 2 ^ w := by
  rw [dbgWord, Nat.two_mul, concatBits_div_add, concatBits_div, concatBits_mod]

theorem dbgWord_cap : dbgWord w cap rv wv / 2 ^ (3 * w) % 2 ^ w = cap % 2 ^ w := by
  rw [dbgWord, show 3 * w = w + (w + w) by omega, concatBits_div_add, concatBits_div_add,
    concatBits_div, concatBits_mod]

theorem dbgWord_flags :
    dbgWord w cap rv wv / 2 ^ (4 * w) =
      concatBits 1 (bit (isFull w cap rv wv)) (bit (isEmpty rv wv)) := by
  rw [dbgWord, show 4 * w = w + (w + (w + w)) by omega, concatBits_div_add, concatBits_div_add,
    concatBits_div_add, concatBits_div]

theorem dbgWord_empty : (dbgWord w cap rv wv).testBit (4 * w) = isEmpty rv wv := by
  obtain ⟨_, hempty, _⟩ := concatBits_flags (isFull w cap rv wv) (isEmpty rv wv)
  rw [← dbgWord_flags, Nat.testBit_div_two_pow, Nat.zero_add] at hempty
  exact hempty

theorem dbgWord_full : (dbgWord w cap rv wv).testBit (4 * w + 1) = isFull w cap rv wv := by
  obtain ⟨_, _, hfull⟩ := concatBits_flags (isFull w cap rv wv) (isEmpty rv wv)
  rw [← dbgWord_flags, Nat.testBit_div_two_pow, Nat.add_comm] at hfull
  exact hfull

end Word

/-- Settles O34: the fields of the word, each narrower than the `W` bits it stands in. -/
theorem dbgWordHoldsItsFields : Obligations.DbgWordHoldsItsFields := by
  refine ⟨?_, fun s hb hf =>
    ⟨portCommand_flushing .producer 0x7 _ hb hf, portCommand_flushing .consumer 0x7 _ hb hf⟩⟩
  intro s ⟨hb, hf⟩ hc hr a _ rv wv w
  have ⟨hwrite, hread, _⟩ := hr
  have hrv : rv < s.cap := by
    simp only [rv]
    split
    · exact readView_lt hr
    · exact hread
  have hwv : wv < s.cap := by
    simp only [wv]
    split
    · exact hwrite
    · exact writeView_lt hr
  have hfits : ∀ {x}, x ≤ s.cap → x % 2 ^ w = x := fun hx =>
    Nat.mod_eq_of_lt (hx.trans_lt (cap_lt_two_pow hc))
  have hlen : len w s.cap rv wv ≤ s.cap := (len_le_usableCap ..).trans (Nat.sub_le ..)
  obtain ⟨_, _, hnotBoth⟩ := predicates_iff_len hc hrv hwv
  refine ⟨dbgWord w s.cap rv wv, ?_, ?_, dbgWord_lt .., (dbgWord_wr ..).trans (hfits hwv.le),
    (dbgWord_rd ..).trans (hfits hrv.le), (dbgWord_size ..).trans (hfits hlen),
    (dbgWord_cap ..).trans (hfits le_rfl), dbgWord_empty .., dbgWord_full .., ?_⟩
  · rintro rfl
    exact portCommand_ready .producer 0x7 _ hb hf
  · rintro rfl
    exact portCommand_ready .consumer 0x7 _ hb hf
  · rwa [dbgWord_empty, dbgWord_full]

/-! ## A pair of cursor values by its ghost counters -/

/-- `rv` and `wv`, a pair of cursor values as a status command uses it (R160), hold the counters `nr` and
`nw` modulo CAP; the counters lie between NRc and NW, in this order (R37). -/
structure Reflects (s : State) (rv wv nr nw : Nat) : Prop where
  read : rv = nr % s.cap
  write : wv = nw % s.cap
  low : s.ghost.nrc ≤ nr
  order : nr ≤ nw
  high : nw ≤ s.ghost.nw

section Pair

variable {s : State} (hc : s.CapOk) (hv : s.ViewsOrdered)

include hv

/-- The pair on port P. -/
theorem reflects_producer : Reflects s s.readView s.write s.ghost.nrs s.ghost.nw := by
  obtain ⟨⟨_, _, _, _, _, _⟩, hwrite, _, _, _, hreadView, _⟩ := hv
  exact ⟨hreadView, hwrite, by omega, by omega, le_rfl⟩

/-- The pair on port C. -/
theorem reflects_consumer : Reflects s s.read s.writeView s.ghost.nr s.ghost.nws := by
  obtain ⟨⟨_, _, _, _, _, _⟩, _, hwriteView, _, hread, _⟩ := hv
  exact ⟨hread, hwriteView, by omega, by omega, by omega⟩

/-- The pair of the cursors themselves. -/
theorem reflects_cursors : Reflects s s.read s.write s.ghost.nr s.ghost.nw := by
  obtain ⟨⟨_, _, _, _, _, _⟩, hwrite, _, _, hread, _⟩ := hv
  exact ⟨hread, hwrite, by omega, by omega, le_rfl⟩

omit hv

variable {rv wv nr nw : Nat} (h : Reflects s rv wv nr nw)

include hc h

theorem Reflects.read_lt : rv < s.cap := by
  rw [h.read]
  exact Nat.mod_lt _ (Nat.two_pos.trans_le (two_le_cap hc))

theorem Reflects.write_lt : wv < s.cap := by
  rw [h.write]
  exact Nat.mod_lt _ (Nat.two_pos.trans_le (two_le_cap hc))

include hv

theorem Reflects.len_eq : len s.cfg.w s.cap rv wv = nw - nr := by
  rw [len_eq_positions hc wv (h.read_lt hc)]
  exact positions_of_counters hc hv h.read h.write h.low h.order h.high

theorem Reflects.isEmpty_eq : isEmpty rv wv = decide (nw - nr = 0) := by
  obtain ⟨hempty, _⟩ := predicates_iff_len hc (h.read_lt hc) (h.write_lt hc)
  rw [Bool.eq_iff_iff, hempty, h.len_eq hc hv, decide_eq_true_iff]

theorem Reflects.isFull_eq :
    isFull s.cfg.w s.cap rv wv = decide (nw - nr = usableCap s.cap) := by
  obtain ⟨_, hfull, _⟩ := predicates_iff_len hc (h.read_lt hc) (h.write_lt hc)
  rw [Bool.eq_iff_iff, hfull, h.len_eq hc hv, decide_eq_true_iff]

end Pair

/-! ## LEN and the snapshot -/

section Snapshot

variable {s : State} (hc : s.CapOk) (hv : s.ViewsOrdered)

include hc hv

/-- The producer sees the reads late, so it counts no item too few (R162). -/
theorem occupancy_le_len_producer :
    s.ghost.nw - s.ghost.nr ≤ len s.cfg.w s.cap s.readView s.write := by
  rw [(reflects_producer hv).len_eq hc hv]
  obtain ⟨⟨_, hnrs, _, _, _, _⟩, _⟩ := hv
  exact Nat.sub_le_sub_left hnrs _

/-- The consumer sees the writes late, so it counts no item too many (R162). -/
theorem len_consumer_le_occupancy :
    len s.cfg.w s.cap s.read s.writeView ≤ s.ghost.nw - s.ghost.nr := by
  rw [(reflects_consumer hv).len_eq hc hv]
  obtain ⟨⟨_, _, _, _, hnws, _⟩, _⟩ := hv
  exact Nat.sub_le_sub_right hnws _

theorem occupancy_eq_zero_of_isEmpty_producer (h : isEmpty s.readView s.write = true) :
    s.ghost.nw - s.ghost.nr = 0 := by
  rw [(reflects_producer hv).isEmpty_eq hc hv, decide_eq_true_iff] at h
  obtain ⟨⟨_, hnrs, _, _, _, _⟩, _⟩ := hv
  omega

theorem occupancy_eq_usableCap_of_isFull_consumer
    (h : isFull s.cfg.w s.cap s.read s.writeView = true) :
    s.ghost.nw - s.ghost.nr = usableCap s.cap := by
  rw [(reflects_consumer hv).isFull_eq hc hv, decide_eq_true_iff] at h
  obtain ⟨⟨hnrc, hnrs, _, _, hnws, hroom⟩, _⟩ := hv
  omega

theorem occupancy_lt_usableCap_of_not_isFull_producer
    (h : isFull s.cfg.w s.cap s.readView s.write = false) :
    s.ghost.nw - s.ghost.nr < usableCap s.cap := by
  rw [(reflects_producer hv).isFull_eq hc hv, decide_eq_false_iff_not] at h
  obtain ⟨⟨hnrc, hnrs, _, _, _, hroom⟩, _⟩ := hv
  omega

theorem occupancy_pos_of_not_isEmpty_consumer (h : isEmpty s.read s.writeView = false) :
    0 < s.ghost.nw - s.ghost.nr := by
  rw [← occupancy_eq hc hv]
  exact occupancy_pos_of_not_cEmpty hc hv h

end Snapshot

/-- Settles O31: the lengths are those of the counters that each port's pair reflects. -/
theorem lenReportsTheViewDistance : Obligations.LenReportsTheViewDistance := by
  intro s hb lenP lenC
  refine ⟨fun hf => ⟨portCommand_ready .producer 0x3 _ hb hf, portCommand_ready .consumer 0x3 _ hb hf⟩,
    fun hf => ⟨portCommand_flushing .producer 0x3 _ hb hf, portCommand_flushing .consumer 0x3 _ hb hf⟩,
    len_le_usableCap .., len_le_usableCap .., fun ⟨_, hinst⟩ => ?_⟩
  obtain ⟨hc, _, _, hv, _, _⟩ := hinst hb
  exact ⟨(reflects_producer hv).len_eq hc hv, (reflects_consumer hv).len_eq hc hv,
    len_consumer_le_occupancy hc hv, occupancy_le_len_producer hc hv⟩

theorem settled_of_single {s : State} (hd : s.cfg.isDual = false) : s.Settled :=
  ⟨writeView_of_single hd, readView_of_single hd⟩

/-- Settles O36: the bounds follow from the order of the counters; in a settled state the pair of either
port is the pair of the cursors. -/
theorem snapshotBounds : Obligations.SnapshotBounds := by
  intro s ⟨_, hinst⟩ ⟨hb, hf⟩
  obtain ⟨hc, _, _, hv, _, _⟩ := hinst hb
  refine ⟨_, _, _, _, _, _, portCommand_ready .producer 0x3 _ hb hf,
    portCommand_ready .consumer 0x3 _ hb hf, portCommand_ready .producer 0x4 _ hb hf,
    portCommand_ready .consumer 0x4 _ hb hf, portCommand_ready .producer 0x5 _ hb hf,
    portCommand_ready .consumer 0x5 _ hb hf, (occupancy_eq hc hv).symm,
    len_consumer_le_occupancy hc hv, occupancy_le_len_producer hc hv,
    occupancy_eq_zero_of_isEmpty_producer hc hv, occupancy_eq_usableCap_of_isFull_consumer hc hv,
    occupancy_lt_usableCap_of_not_isFull_producer hc hv,
    occupancy_pos_of_not_isEmpty_consumer hc hv, fun hexact => ?_⟩
  obtain ⟨hwriteView, hreadView⟩ : s.Settled := hexact.elim id settled_of_single
  have hP : Reflects s s.readView s.write s.ghost.nr s.ghost.nw := hreadView ▸ reflects_cursors hv
  have hC : Reflects s s.read s.writeView s.ghost.nr s.ghost.nw := hwriteView ▸ reflects_cursors hv
  exact ⟨hP.len_eq hc hv, hC.len_eq hc hv, hP.isEmpty_eq hc hv, hC.isEmpty_eq hc hv,
    hP.isFull_eq hc hv, hC.isFull_eq hc hv⟩

end Sys2Proof.Proofs
end

section
/-!
PROOFS. The two directions of the crossing under one name (45_cdc_sync sections 2 and 3): SYNC_W2R with
the edge of `rclk`, and SYNC_R2W with the edge of `wclk`, as the same change of state. From it: when an
agent has a step (R182), what a step (R180, R181) and an edge (R185) change, and sampling (R186).
-/

namespace Sys2Proof.Proofs

open Sys2Proof Sys2Proof.Machine

/-! ## The registers of one direction -/

/-- A direction of the crossing, named after its chain. -/
inductive Direction where
  | w2r
  | r2w

namespace Direction

/-- The agent that moves the view (R180, R181). -/
def agent : Direction → Instr
  | w2r => .syncW2r
  | r2w => .syncR2w

/-- Whether the agent has a step (R182). -/
def enabled : Direction → State → Bool
  | w2r => State.w2rEnabled
  | r2w => State.r2wEnabled

/-- An edge of the receiving clock (R185). -/
def edge : Direction → Nat → State → Host.Outcome State Fault Refusal
  | w2r => rclkEdge
  | r2w => wclkEdge

/-- The event that presents such an edge. -/
def edgeEvent : Direction → Nat → Event
  | w2r => .rclkEdge
  | r2w => .wclkEdge

/-- The cursor that crosses. -/
def source : Direction → State → Nat
  | w2r => State.write
  | r2w => State.read

/-- The receiving domain's view of the cursor. -/
def view : Direction → State → Nat
  | w2r => State.wsync
  | r2w => State.rsync

/-- The Gray register of the cursor. -/
def register : Direction → State → Nat
  | w2r => State.wgray
  | r2w => State.rgray

/-- What the Gray register held before its latest change (log 9). -/
def previous : Direction → State → Nat
  | w2r => State.wgrayPrev
  | r2w => State.rgrayPrev

/-- The synchronizer chain. -/
def chain : Direction → State → List Nat
  | w2r => State.w2r
  | r2w => State.r2w

/-- `s` with the view set and its ghost advanced by `n`, and with the Gray copies that go with it. -/
def withView (d : Direction) (view previous : Nat) (chain : List Nat) (n : Nat) (s : State) : State :=
  match d with
  | w2r =>
    { s with
      wsync := view
      wgrayPrev := previous
      w2r := chain
      ghost := { s.ghost with nws := s.ghost.nws + n } }
  | r2w =>
    { s with
      rsync := view
      rgrayPrev := previous
      r2w := chain
      ghost := { s.ghost with nrs := s.ghost.nrs + n } }

/-- The state that a step of the agent leaves (R180, R181; log 8). -/
def synced (d : Direction) (s : State) : State :=
  let follow := advanceCopy (s.gray (d.view s)) (s.gray (s.next (d.view s)))
  d.withView (s.next (d.view s)) (follow (d.previous s)) ((d.chain s).map follow) 1 s

/-- The chain after an edge (R185, R186). -/
def edgeChain (d : Direction) (capture : Nat) (s : State) : List Nat :=
  shiftChain (sampleGray (d.previous s) (d.register s) capture) (d.chain s)

/-- The state that an edge leaves between flush windows with two clocks (R185). -/
def edged (d : Direction) (capture : Nat) (s : State) : State :=
  let view := s.chainOutput (d.edgeChain capture s)
  d.withView view (d.register s) (d.edgeChain capture s) (len s.cfg.w s.cap (d.view s) view) s

/-! ## What a step and an edge are -/

variable {d : Direction} {s : State}

theorem enabled_iff : d.enabled s = true ↔
    s.cfg.isDual = true ∧ s.flushing = false ∧ d.view s ≠ d.source s := by
  cases d <;> simp [enabled, State.w2rEnabled, State.r2wEnabled, view, source, and_assoc]

theorem exec_agent_of_enabled (hb : s.built = true) (h : d.enabled s = true) :
    exec d.agent s = .next (showing Outputs.zero (d.synced s)) := by
  cases d <;> exact (onInstance_built _ hb).trans (if_pos h)

theorem exec_agent_of_disabled (hb : s.built = true) (h : d.enabled s = false) :
    exec d.agent s = .refused .agentDisabled := by
  cases d
  · exact exec_syncW2r_of_disabled hb h
  · exact exec_syncR2w_of_disabled hb h

theorem exists_exec_agent_iff (hb : s.built = true) :
    (∃ t, exec d.agent s = .next t) ↔ d.enabled s = true := by
  refine ⟨fun ⟨t, ht⟩ => ?_, fun h => ⟨_, exec_agent_of_enabled hb h⟩⟩
  by_contra hoff
  cases (exec_agent_of_disabled hb (Bool.eq_false_iff.2 hoff)).symm.trans ht

theorem edge_of_dual (d : Direction) (hready : s.Ready) (hd : s.cfg.isDual = true) (capture : Nat) :
    d.edge capture s = .next (showing Outputs.zero (d.edged capture s)) := by
  obtain ⟨hb, hf⟩ := hready
  cases d <;> exact (onInstance_built _ hb).trans (if_pos (by simp [hd, hf]))

/-- In a flush window (log 10) and with one clock (R44) an edge moves nothing. -/
theorem edge_of_no_shift (d : Direction) (hb : s.built = true)
    (h : s.flushing = true ∨ s.cfg.isDual = false) (capture : Nat) :
    d.edge capture s = .next (showing Outputs.zero s) := by
  have hoff : ¬(s.cfg.isDual && !s.flushing) = true := by
    obtain h | h := h <;> simp [h]
  cases d <;> exact (onInstance_built _ hb).trans (if_neg hoff)

theorem step_of_edge {capture : Nat} {rest : List Event}
    (hin : s.inputs = d.edgeEvent capture :: rest) :
    step s = d.edge capture { s with inputs := rest } := by
  cases d
  · exact step_of_rclkEdge hin
  · exact step_of_wclkEdge hin

end Direction

/-! ## The rules of a step and of an edge -/

theorem isDual_iff {p : Params} : p.isDual = true ↔ p.clocking = .dual := beq_iff_eq

/-- Settles O42: the agent of either direction has a step exactly when it is enabled. -/
theorem agentsStepExactlyWhenEnabled : Obligations.AgentsStepExactlyWhenEnabled := by
  have hstep (d : Direction) (s : State) (hb : s.built = true) :
      (∃ t, exec d.agent s = .next t) ↔
        s.cfg.clocking = .dual ∧ s.flushing = false ∧ d.view s ≠ d.source s := by
    rw [Direction.exists_exec_agent_iff hb, Direction.enabled_iff, isDual_iff]
  exact fun s hb => ⟨hstep .w2r s hb, hstep .r2w s hb⟩

/-- Settles O41: the view of an enabled agent goes on by `inc`, the successor modulo CAP. -/
theorem agentsMoveAViewOnePosition : Obligations.AgentsMoveAViewOnePosition := by
  intro s ⟨hb, hf⟩ hd hc _
  have hstep (d : Direction) (hne : d.view s ≠ d.source s) :=
    Direction.exec_agent_of_enabled hb (Direction.enabled_iff.2 ⟨hd, hf, hne⟩)
  exact ⟨fun hne => ⟨_, hstep .w2r hne, next_eq_mod hc _, rfl⟩,
    fun hne => ⟨_, hstep .r2w hne, next_eq_mod hc _, rfl⟩⟩

/-- Settles O45: the states that an edge leaves where there is a chain to shift, and elsewhere. -/
theorem edgesShiftTheChain : Obligations.EdgesShiftTheChain := fun _ capture hb =>
  ⟨fun hd hf =>
    ⟨⟨_, Direction.edge_of_dual .w2r ⟨hb, hf⟩ hd capture, rfl, rfl, rfl⟩,
      ⟨_, Direction.edge_of_dual .r2w ⟨hb, hf⟩ hd capture, rfl, rfl, rfl⟩⟩,
    fun h => ⟨Direction.edge_of_no_shift .w2r hb h capture,
      Direction.edge_of_no_shift .r2w hb h capture⟩⟩

/-! ## Sampling -/

theorem testBit_sampleGray (old new capture i : Nat) :
    (sampleGray old new capture).testBit i =
      if capture.testBit i then new.testBit i else old.testBit i := by
  rw [sampleGray, Nat.testBit_xor, Nat.testBit_and, Nat.testBit_xor]
  cases capture.testBit i <;> simp

/-- Settles O44: adjacent codes differ in one bit, so a sample of the change is one of the two. -/
theorem sampledCursorIsOldOrNew : Obligations.SampledCursorIsOldOrNew := by
  refine ⟨testBit_sampleGray, sampleGray_self, fun w k c capture hk hkw hc => ?_⟩
  rw [inc_eq_mod (Nat.le_of_succ_le hkw)]
  have hnew : (c + 1) % 2 ^ k < 2 ^ k := Nat.mod_lt _ (Nat.two_pow_pos k)
  obtain ⟨j, hone⟩ := bin2gray_xor_bin2gray_succ hk hc
  obtain h | h := sampleGray_of_one_bit hone capture
  · exact .inl ⟨h, by rw [h, gray2bin_bin2gray hc]⟩
  · exact .inr ⟨h, by rw [h, gray2bin_bin2gray hnew]⟩

end Sys2Proof.Proofs
end

section
/-!
PROOFS. A clock edge does what some number of agent steps does (45_cdc_sync R187, R189), and an agent
whose source is at rest settles (R182, R65): both a step of the agent and an edge take the view some
positions on, and steps of the agent take it any number of positions up to its source.
-/

namespace Sys2Proof.Proofs

open Sys2Proof Sys2Proof.Machine

namespace Direction

/-- `t` is `s` with the view `n` positions on, up to the chain, the earlier Gray value and the
results. -/
def Moved (d : Direction) (n : Nat) (s t : State) : Prop :=
  ∃ previous chain o,
    t = showing o (d.withView ((d.view s + n) % s.cap) previous chain n s)

variable {d : Direction} {s t u : State} {m n : Nat}

theorem source_lt (d : Direction) (hr : s.InRange) : d.source s < s.cap := by
  obtain ⟨hwrite, hread, _⟩ := hr
  cases d
  · exact hwrite
  · exact hread

theorem view_lt (d : Direction) (hr : s.InRange) : d.view s < s.cap := by
  obtain ⟨_, _, _, _, hrsync, hwsync⟩ := hr
  cases d
  · exact hwsync
  · exact hrsync

/-! ## The view some positions on -/

theorem Moved.refl (hv : d.view s < s.cap) : Moved d 0 s s := by
  refine ⟨d.previous s, d.chain s, s.out, ?_⟩
  rw [Nat.add_zero, Nat.mod_eq_of_lt hv]
  cases d <;> rfl

theorem Moved.view_eq (h : Moved d n s t) : d.view t = (d.view s + n) % s.cap := by
  obtain ⟨_, _, _, rfl⟩ := h
  cases d <;> rfl

theorem Moved.source_eq (h : Moved d n s t) : d.source t = d.source s := by
  obtain ⟨_, _, _, rfl⟩ := h
  cases d <;> rfl

theorem Moved.sameInstance (h : Moved d n s t) : SameInstance s t := by
  obtain ⟨_, _, _, rfl⟩ := h
  cases d <;> exact ⟨rfl, rfl, rfl, rfl⟩

theorem Moved.flushing_eq (h : Moved d n s t) : t.flushing = s.flushing := by
  obtain ⟨_, _, _, rfl⟩ := h
  cases d <;> rfl

theorem Moved.trans (hst : Moved d m s t) (htu : Moved d n t u) : Moved d (m + n) s u := by
  obtain ⟨previous, chain, o, rfl⟩ := htu
  rw [hst.view_eq, hst.sameInstance.cap, Nat.mod_add_mod, Nat.add_assoc]
  obtain ⟨_, _, _, rfl⟩ := hst
  refine ⟨previous, chain, o, ?_⟩
  cases d <;> simp only [withView, showing, Nat.add_assoc]

/-- How far the view has moved fixes the part of the state that the abstract agents speak of. -/
theorem Moved.abstractPart_eq (ht : Moved d n s t) (hu : Moved d n s u) :
    t.abstractPart = u.abstractPart := by
  obtain ⟨_, _, _, rfl⟩ := ht
  obtain ⟨_, _, _, rfl⟩ := hu
  cases d <;> rfl

theorem Moved.capOk (h : Moved d n s t) (hc : s.CapOk) : t.CapOk := by
  obtain ⟨_, hcap, hinit, hcfg⟩ := h.sameInstance
  rw [State.CapOk, hcap, hinit, hcfg]
  exact hc

/-! ## Steps of the agent and edges of the clock -/

theorem moved_synced (d : Direction) (hc : s.CapOk) :
    Moved d 1 s (showing Outputs.zero (d.synced s)) :=
  ⟨_, _, _, by rw [← next_eq_mod hc]; rfl⟩

theorem moved_edged (d : Direction) (hc : s.CapOk) (hr : s.InRange) (capture : Nat) :
    Moved d (s.positions (d.view s) (s.chainOutput (d.edgeChain capture s))) s
      (showing Outputs.zero (d.edged capture s)) := by
  have hv := view_lt d hr
  have hadd := add_positions_mod (n := d.view s) (chainOutput_lt hc (d.edgeChain capture s))
  rw [Nat.mod_eq_of_lt hv] at hadd
  exact ⟨_, _, _, by rw [hadd, ← len_eq_positions hc _ hv]; rfl⟩

/-- As long as the view has not come to its source, the agent steps on (R180, R181). -/
theorem execAll_agent (hc : s.CapOk) (hr : s.InRange) (hready : s.Ready) (hd : s.cfg.isDual = true) :
    ∀ n ≤ s.positions (d.view s) (d.source s),
      ∃ t, execAll (List.replicate n d.agent) s = .next t ∧ Moved d n s t := by
  intro n
  induction n with
  | zero => exact fun _ => ⟨s, rfl, .refl (view_lt d hr)⟩
  | succ n ih =>
    intro hn
    obtain ⟨t, hrun, hmoved⟩ := ih (Nat.le_of_succ_le hn)
    obtain ⟨hbuilt, _, _, hcfg⟩ := hmoved.sameInstance
    have hlt : s.positions (d.view s) (d.source s) < s.cap :=
      Nat.mod_lt _ (Nat.zero_lt_of_lt (view_lt d hr))
    have hne : d.view t ≠ d.source t := by
      rw [hmoved.view_eq, hmoved.source_eq]
      intro heq
      have hback := positions_add_mod (view_lt d hr) (show n < s.cap by omega)
      rw [heq] at hback
      omega
    have hstep := exec_agent_of_enabled (hbuilt.trans hready.1)
      (enabled_iff.2 ⟨hcfg ▸ hd, hmoved.flushing_eq.trans hready.2, hne⟩)
    refine ⟨_, ?_, hmoved.trans (moved_synced d (hmoved.capOk hc))⟩
    rw [List.replicate_succ', execAll_append_of_next _ hrun, execAll, hstep]
    rfl

theorem positions_le_usableCap (hc : s.CapOk) (a b : Nat) : s.positions a b ≤ usableCap s.cap :=
  Nat.le_sub_one_of_lt (Nat.mod_lt _ (Nat.two_pos.trans_le (two_le_cap hc)))

/-- R182, R65: with its source at rest the agent settles. -/
theorem agent_settles (d : Direction) (hinv : s.InstanceInv) (hready : s.Ready)
    (hd : s.cfg.isDual = true) :
    ∃ n t, n ≤ usableCap s.cap ∧ execAll (List.replicate n d.agent) s = .next t ∧
      d.view t = d.source s ∧ d.source t = d.source s ∧ ∀ u, exec d.agent t ≠ .next u := by
  obtain ⟨hc, hr, _⟩ := hinv
  obtain ⟨t, hrun, hmoved⟩ := execAll_agent (d := d) hc hr hready hd _ le_rfl
  have hview : d.view t = d.source s := by
    have hadd := add_positions_mod (n := d.view s) (source_lt d hr)
    rw [Nat.mod_eq_of_lt (view_lt d hr)] at hadd
    rw [hmoved.view_eq, hadd]
  refine ⟨_, t, positions_le_usableCap hc _ _, hrun, hview, hmoved.source_eq, fun u hu => ?_⟩
  have henabled := (exists_exec_agent_iff (hmoved.sameInstance.built.trans hready.1)).1 ⟨u, hu⟩
  obtain ⟨_, _, hne⟩ := enabled_iff.1 henabled
  exact hne (hview.trans hmoved.source_eq.symm)

theorem crossingOk (d : Direction) (hinv : s.InstanceInv) (hd : s.cfg.isDual = true) :
    s.CrossingOk (d.source s) (d.view s) (d.register s) (d.previous s) (d.chain s) := by
  obtain ⟨_, _, _, _, _, hx⟩ := hinv
  obtain ⟨hw2r, hr2w⟩ := (structureOk_of_dual hd).1 hx
  cases d
  · exact hw2r
  · exact hr2w

/-- R187: the view of an edge is between the old view and the source, so that steps of the agent reach
it. -/
theorem edge_refines_agent_steps (d : Direction) {capture : Nat} (hcfg : s.cfg.Ok)
    (hinv : s.InstanceInv) (hready : s.Ready) (hd : s.cfg.isDual = true)
    (h : d.edge capture s = .next t) :
    ∃ n u, n ≤ usableCap s.cap ∧ execAll (List.replicate n d.agent) s = .next u ∧
      t.abstractPart = u.abstractPart := by
  have ⟨hc, hr, _⟩ := hinv
  cases (edge_of_dual d hready hd capture).symm.trans h
  obtain ⟨_, hle⟩ := crossingOk_shift hc (nsync_pos hcfg) (d.crossingOk hinv hd) (source_lt d hr)
    (view_lt d hr) capture
  obtain ⟨u, hrun, hmoved⟩ := execAll_agent (d := d) hc hr hready hd _ hle
  exact ⟨_, u, positions_le_usableCap hc _ _, hrun,
    (moved_edged d hc hr capture).abstractPart_eq hmoved⟩

end Direction

/-- Settles O46: an edge takes the view some positions toward its source, as so many agent steps do. -/
theorem edgesRefineAgentSteps : Obligations.EdgesRefineAgentSteps := by
  intro s t capture ⟨hcfg, hinst⟩ hready hd
  have hinv := hinst hready.1
  exact ⟨Direction.edge_refines_agent_steps .w2r hcfg hinv hready hd,
    Direction.edge_refines_agent_steps .r2w hcfg hinv hready hd⟩

/-- Settles O43: the agent of either direction takes its view to the cursor at rest. -/
theorem agentsSettle : Obligations.AgentsSettle := by
  intro s ⟨_, hinst⟩ hready hd
  have hinv := hinst hready.1
  exact ⟨Direction.agent_settles .w2r hinv hready hd, Direction.agent_settles .r2w hinv hready hd⟩

end Sys2Proof.Proofs
end

section
/-!
PROOFS. With the cursor at rest, NSYNC + 1 edges of the receiving clock bring the view home (45_cdc_sync
R187): from the second edge on every sample is the Gray register, and NSYNC of them fill the chain.
-/

namespace Sys2Proof.Proofs

open Sys2Proof Sys2Proof.Machine

/-! ## Filling a chain -/

/-- Each shift puts one more copy of the sampled value in front and drops the last stage. -/
theorem iterate_shiftChain (x : Nat) (chain : List Nat) :
    ∀ k ≤ chain.length,
      (shiftChain x)^[k] chain = List.replicate k x ++ chain.take (chain.length - k) := by
  intro k
  induction k with
  | zero => simp
  | succ k ih =>
    intro hk
    have hlen : (chain.take (chain.length - k)).length = chain.length - k := by simp
    have hne : chain.take (chain.length - k) ≠ [] := List.ne_nil_of_length_pos (by omega)
    have hdrop : (chain.take (chain.length - k)).dropLast = chain.take (chain.length - (k + 1)) := by
      rw [List.dropLast_eq_take, hlen, List.take_take, Nat.min_eq_left (Nat.sub_le ..), Nat.sub_sub]
    rw [Function.iterate_succ_apply', ih (Nat.le_of_succ_le hk), shiftChain,
      List.dropLast_append_of_ne_nil hne, hdrop]
    rfl

theorem length_shiftChain {chain : List Nat} (h : 0 < chain.length) (x : Nat) :
    (shiftChain x chain).length = chain.length := by
  rw [shiftChain, List.length_cons, List.length_dropLast, Nat.sub_add_cancel h]

theorem chainOutput_replicate (s : State) {n : Nat} (hn : 0 < n) (g : Nat) :
    s.chainOutput (List.replicate n g) = gray2bin (addrWidth s.cap) g := by
  rw [State.chainOutput, List.getLastD_eq_getLast?, List.getLast?_replicate, if_neg hn.ne',
    Option.getD_some]

/-! ## Edges in a row -/

namespace Direction

variable {d : Direction} {s : State}

/-- `s` after edges that have left the chain `chain` and no earlier value to sample, with the events
still to come. -/
def afterEdges (d : Direction) (chain : List Nat) (n : Nat) (rest : List Event) (s : State) : State :=
  { showing Outputs.zero (d.withView (s.chainOutput chain) (d.register s) chain n s) with
    inputs := rest }

theorem view_afterEdges (chain : List Nat) (n : Nat) (rest : List Event) :
    d.view (d.afterEdges chain n rest s) = s.chainOutput chain := by
  cases d <;> rfl

theorem source_afterEdges (chain : List Nat) (n : Nat) (rest : List Event) :
    d.source (d.afterEdges chain n rest s) = d.source s := by
  cases d <;> rfl

theorem step_edge (d : Direction) (hready : s.Ready) (hd : s.cfg.isDual = true) (capture : Nat)
    (rest : List Event) :
    ∃ n, step { s with inputs := d.edgeEvent capture :: rest } =
      .next (d.afterEdges (d.edgeChain capture s) n rest s) := by
  refine ⟨len s.cfg.w s.cap (d.view s) (s.chainOutput (d.edgeChain capture s)), ?_⟩
  rw [step_of_edge rfl, edge_of_dual d (by exact hready) (by exact hd)]
  cases d <;> rfl

/-- After an edge the next one samples the Gray register as it is (R186). -/
theorem edgeChain_afterEdges (chain : List Nat) (n capture : Nat) (rest : List Event) :
    d.edgeChain capture (d.afterEdges chain n rest s) = shiftChain (d.register s) chain := by
  cases d <;> exact congrArg (shiftChain · chain) (sampleGray_self ..)

theorem afterEdges_afterEdges (chain chain' : List Nat) (m n : Nat) (rest rest' : List Event) :
    d.afterEdges chain' n rest' (d.afterEdges chain m rest s) =
      d.afterEdges chain' (m + n) rest' s := by
  cases d <;> simp only [afterEdges, withView, showing, register, State.chainOutput, Nat.add_assoc]

theorem step_edge_afterEdges (d : Direction) (hready : s.Ready) (hd : s.cfg.isDual = true)
    (chain : List Nat) (n capture : Nat) (rest : List Event) :
    ∃ m, step (d.afterEdges chain n (d.edgeEvent capture :: rest) s) =
      .next (d.afterEdges (shiftChain (d.register s) chain) m rest s) := by
  have hready' : (d.afterEdges chain n rest s).Ready := by cases d <;> exact hready
  have hd' : (d.afterEdges chain n rest s).cfg.isDual = true := by cases d <;> exact hd
  obtain ⟨m, hstep⟩ := step_edge d hready' hd' capture rest
  rw [edgeChain_afterEdges, afterEdges_afterEdges] at hstep
  exact ⟨n + m, hstep⟩

/-- Edges at rest shift the Gray register into the chain, whatever they capture. -/
theorem runSteps_edges (d : Direction) (hready : s.Ready) (hd : s.cfg.isDual = true) :
    ∀ (captures chain : List Nat) (n : Nat),
      ∃ m, runSteps captures.length (d.afterEdges chain n (captures.map d.edgeEvent) s) =
        .next (d.afterEdges ((shiftChain (d.register s))^[captures.length] chain) m [] s)
  | [], _, n => ⟨n, rfl⟩
  | capture :: captures, chain, n => by
    obtain ⟨m, hstep⟩ :=
      step_edge_afterEdges d hready hd chain n capture (captures.map d.edgeEvent)
    obtain ⟨k, hrun⟩ := runSteps_edges d hready hd captures (shiftChain (d.register s) chain) m
    refine ⟨k, ?_⟩
    rw [List.length_cons, List.map_cons, runSteps, hstep, Function.iterate_succ_apply]
    exact hrun

/-- R187: the first edge takes a sample that may be an earlier value, and the NSYNC edges after it fill
the chain with the code of the cursor. -/
theorem edges_bring_the_view_home (d : Direction) {captures : List Nat} (hcfg : s.cfg.Ok)
    (hinv : s.InstanceInv) (hready : s.Ready) (hd : s.cfg.isDual = true)
    (hlen : captures.length = s.cfg.nsync + 1) :
    ∃ t, runSteps (s.cfg.nsync + 1) { s with inputs := captures.map d.edgeEvent } = .next t ∧
      d.view t = d.source s ∧ d.source t = d.source s := by
  have hn := nsync_pos hcfg
  have ⟨hc, hr, _⟩ := hinv
  obtain ⟨hregister, hchain, _⟩ := d.crossingOk hinv hd
  obtain ⟨capture, rest, rfl⟩ := List.exists_cons_of_length_eq_add_one hlen
  have hrest : rest.length = s.cfg.nsync := Nat.succ.inj hlen
  obtain ⟨n, hfirst⟩ := step_edge d hready hd capture (rest.map d.edgeEvent)
  obtain ⟨m, hrun⟩ := runSteps_edges d hready hd rest (d.edgeChain capture s) n
  have hlength : (d.edgeChain capture s).length = s.cfg.nsync :=
    (length_shiftChain (hchain ▸ hn) _).trans hchain
  have hfilled : (shiftChain (d.register s))^[rest.length] (d.edgeChain capture s) =
      List.replicate s.cfg.nsync (d.register s) := by
    rw [hrest, iterate_shiftChain _ _ _ hlength.ge, hlength, Nat.sub_self, List.take_zero,
      List.append_nil]
  rw [hfilled, hrest] at hrun
  refine ⟨d.afterEdges (List.replicate s.cfg.nsync (d.register s)) m [] s, ?_, ?_,
    source_afterEdges ..⟩
  · rw [List.map_cons, runSteps, hfirst]
    exact hrun
  · rw [view_afterEdges, chainOutput_replicate s hn, hregister, gray2bin_gray hc (source_lt d hr)]

end Direction

/-- Settles O47: the edges of either clock. -/
theorem edgesBringTheViewHome : Obligations.EdgesBringTheViewHome := by
  intro s captures ⟨hcfg, hinst⟩ hready hd hlen
  have hinv := hinst hready.1
  exact ⟨Direction.edges_bring_the_view_home .w2r hcfg hinv hready hd hlen,
    Direction.edges_bring_the_view_home .r2w hcfg hinv hready hd hlen⟩

end Sys2Proof.Proofs
end

section
/-!
PROOFS. Errors (60_exceptions): every command but NOP races in a flush window (R209), errors are
precise (R201), and an ENQ and a DEQ at one instant are two steps in either order (R207, R72).
-/

namespace Sys2Proof.Proofs

open Sys2Proof Sys2Proof.Machine

/-! ## The flush window -/

/-- Settles O37: each command that has an opcode here is a port command with that opcode. -/
theorem commandsInAFlushWindowRace : Obligations.CommandsInAFlushWindowRace := by
  intro s i a op hb hf hrace
  cases i with
  | enq | lenP | isEmptyP | isFullP | capP | dbgP =>
    cases hrace
    exact portCommand_flushing .producer _ _ hb hf
  | deq | lenC | isEmptyC | isFullC | capC | dbgC =>
    cases hrace
    exact portCommand_flushing .consumer _ _ hb hf
  | _ => cases hrace

/-! ## Precise errors -/

/-- A step from `s` to `t` of a command on port `a` leaves `fault` alone, or is an error and nothing
else (R201). -/
def PreciseOn (a : Agent) (s t : State) : Prop :=
  t.fault = s.fault ∨ ∃ k op, t = raise k a op s

theorem PreciseOn.raised (k : ErrorKind) (a : Agent) (op : Nat) (s : State) :
    PreciseOn a s (raise k a op s) :=
  .inr ⟨k, op, rfl⟩

theorem PreciseOn.of_portCommand {a : Agent} {op : Nat} {s t : State}
    {k : Host.Outcome State Fault Refusal} (h : portCommand a op s k = .next t)
    (hk : k = .next t → PreciseOn a s t) : PreciseOn a s t := by
  obtain ⟨_, ⟨_, rfl⟩ | ⟨_, hnext⟩⟩ := portCommand_next h
  · exact .raised ..
  · exact hk hnext

theorem fault_of_answer {o : Outputs} {s t : State} (h : answer o s = .next t) :
    t.fault = s.fault := by
  cases h
  rfl

theorem fault_producerLoaded (s : State) : (producerLoaded s).fault = s.fault := by
  rw [producerLoaded_eq]

theorem fault_reloadWriteShadow (s : State) : (reloadWriteShadow s).fault = s.fault := by
  rw [reloadWriteShadow_eq]

theorem enqBody_preciseOn {s t : State} {item : Nat} (h : enqBody item s = .next t) :
    PreciseOn .producer s t := by
  obtain ⟨_, hbody⟩ | ⟨e, _, hbody⟩ | ⟨_, u, hu, hbody⟩ := enqBody_cases item s
  · exact .inl ((fault_of_answer (hbody ▸ h)).trans (fault_producerLoaded s))
  · cases hbody.symm.trans h
    exact .raised ..
  · have hcommit := (fault_of_enqCommit hu).trans (fault_producerLoaded s)
    exact .inl ((fault_of_answer (hbody ▸ h)).trans hcommit)

theorem deqBody_preciseOn {s t : State} (h : deqBody s = .next t) : PreciseOn .consumer s t := by
  obtain ⟨_, hbody⟩ | ⟨e, _, hbody⟩ | ⟨_, u, item, hu, hbody⟩ := deqBody_cases s
  · exact .inl ((fault_of_answer (hbody ▸ h)).trans (fault_reloadWriteShadow s))
  · cases hbody.symm.trans h
    exact .raised ..
  · have hcommit := (fault_of_deqCommit hu).trans (fault_reloadWriteShadow s)
    exact .inl ((fault_of_answer (hbody ▸ h)).trans hcommit)

/-- An enabled agent makes no error, and a disabled one has no next state (R180, R181). -/
theorem fault_of_agent (d : Direction) {s t : State} (hb : s.built = true)
    (h : exec d.agent s = .next t) : t.fault = s.fault := by
  cases hen : d.enabled s with
  | true =>
    rw [Direction.exec_agent_of_enabled hb hen] at h
    cases h
    cases d <;> rfl
  | false =>
    rw [Direction.exec_agent_of_disabled hb hen] at h
    cases h

/-- A command without a port makes no error (R201). -/
theorem exec_preciseOn {s t : State} {i : Instr} (hb : s.built = true) (h : exec i s = .next t) :
    t.fault = s.fault ∨ ∃ a, portOf i = some a ∧ PreciseOn a s t := by
  cases i with
  | enq item => exact .inr ⟨.producer, rfl, .of_portCommand h enqBody_preciseOn⟩
  | deq => exact .inr ⟨.consumer, rfl, .of_portCommand h deqBody_preciseOn⟩
  | lenP | isEmptyP | isFullP | capP | dbgP =>
    exact .inr ⟨.producer, rfl, .of_portCommand h fun hk => .inl (fault_of_answer hk)⟩
  | lenC | isEmptyC | isFullC | capC | dbgC =>
    exact .inr ⟨.consumer, rfl, .of_portCommand h fun hk => .inl (fault_of_answer hk)⟩
  | nopP | nopC | hnop => exact .inl (fault_of_answer (onInstance_next h).2)
  | flushEnd =>
    obtain ⟨_, h⟩ := onInstance_next h
    split at h
    · cases h
      exact .inl rfl
    · cases h
      exact .inr ⟨.host, rfl, .raised ..⟩
  | flushBegin | reset =>
    obtain ⟨_, h⟩ := onInstance_next h
    cases h
    exact .inl rfl
  | construct | constructFrom => exact absurd hb (Bool.eq_false_iff.1 (onNoInstance_next h).1)
  | syncW2r => exact .inl (fault_of_agent .w2r hb h)
  | syncR2w => exact .inl (fault_of_agent .r2w hb h)
  | illegalPDeq | reservedP =>
    obtain ⟨_, rfl⟩ := illegalCommand_next h
    exact .inr ⟨.producer, rfl, .raised ..⟩
  | illegalCEnq | reservedC =>
    obtain ⟨_, rfl⟩ := illegalCommand_next h
    exact .inr ⟨.consumer, rfl, .raised ..⟩

/-- Settles O39: a command that adds to `fault` has raised, on the port it stands on. -/
theorem errorsArePrecise : Obligations.ErrorsArePrecise := by
  intro s t i hb h hfault
  obtain hsame | ⟨a, hport, hsame | ⟨k, op, rfl⟩⟩ := exec_preciseOn hb h
  · exact absurd hsame hfault
  · exact absurd hsame hfault
  · exact ⟨{ kind := k, agent := a, opcode := op }, hport, rfl⟩

/-! ## ENQ and DEQ in a sound state, each as one function -/

/-- The state that ENQ leaves in a sound state outside a window, results apart (R141, R142). -/
def afterEnqueue (item : Nat) (s : State) : State :=
  if s.pFull then s else enqueued item (producerLoaded s)

/-- The state that DEQ leaves in a sound state outside a window, results apart (R151, R152). -/
def afterDequeue (s : State) : State :=
  if s.cEmpty then s else dequeued (reloadWriteShadow s)

/-- The results of DEQ in a sound state outside a window (R87, R152). -/
def dequeueOut (s : State) : Outputs :=
  if s.cEmpty then okOn .consumer false
  else itemOut ((Memory.read s.slots (s.next s.read)).getD zeroDatum)

section Sound

variable {s : State} (hinv : s.Inv) (hready : s.Ready)

include hinv hready

theorem exec_enq_eq_afterEnqueue (item : Nat) :
    exec (.enq item) s = .next (showing (okOn .producer !s.pFull) (afterEnqueue item s)) := by
  obtain ⟨hb, hf⟩ := hready
  refine (portCommand_ready _ _ _ hb hf).trans ((enqBody_eq_ite (hinv.2 hb) item).trans ?_)
  unfold afterEnqueue
  cases s.pFull <;> rfl

theorem exec_deq_eq_afterDequeue :
    exec .deq s = .next (showing (dequeueOut s) (afterDequeue s)) := by
  obtain ⟨hb, hf⟩ := hready
  refine (portCommand_ready _ _ _ hb hf).trans ?_
  unfold dequeueOut afterDequeue
  cases hempty : s.cEmpty with
  | true => exact deqBody_of_cEmpty (hinv.2 hb) hempty
  | false =>
    obtain ⟨v, hread, hbody⟩ := deqBody_of_item hinv.1 (hinv.2 hb) hempty
    rw [hread, hbody]
    rfl

end Sound

theorem afterEnqueue_of_pFull {s : State} (hfull : s.pFull = true) (item : Nat) :
    afterEnqueue item s = s :=
  if_pos hfull

theorem afterEnqueue_of_not_pFull {s : State} (hroom : s.pFull = false) (item : Nat) :
    afterEnqueue item s = enqueued item (producerLoaded s) :=
  if_neg (Bool.eq_false_iff.1 hroom)

theorem afterDequeue_of_cEmpty {s : State} (hempty : s.cEmpty = true) : afterDequeue s = s :=
  if_pos hempty

theorem afterDequeue_of_not_cEmpty {s : State} (hitem : s.cEmpty = false) :
    afterDequeue s = dequeued (reloadWriteShadow s) :=
  if_neg (Bool.eq_false_iff.1 hitem)

/-! ### The results of the step before do not matter to an ENQ or a DEQ (R87) -/

theorem pFull_showing (o : Outputs) (s : State) : (showing o s).pFull = s.pFull := rfl

theorem cEmpty_showing (o : Outputs) (s : State) : (showing o s).cEmpty = s.cEmpty := rfl

theorem dequeueOut_showing (o : Outputs) (s : State) :
    dequeueOut (showing o s) = dequeueOut s := rfl

theorem afterEnqueue_showing (item : Nat) (o : Outputs) (s : State) :
    afterEnqueue item (showing o s) = showing o (afterEnqueue item s) := by
  unfold afterEnqueue
  rw [producerLoaded_eq, producerLoaded_eq, pFull_showing]
  split <;> rfl

theorem afterDequeue_showing (o : Outputs) (s : State) :
    afterDequeue (showing o s) = showing o (afterDequeue s) := by
  unfold afterDequeue
  rw [reloadWriteShadow_eq, reloadWriteShadow_eq, cEmpty_showing]
  split <;> rfl

/-! ### Neither command opens or closes a window -/

theorem afterEnqueue_flushing (item : Nat) (s : State) :
    (afterEnqueue item s).flushing = s.flushing := by
  unfold afterEnqueue
  rw [producerLoaded_eq]
  split <;> rfl

theorem afterDequeue_flushing (s : State) : (afterDequeue s).flushing = s.flushing := by
  unfold afterDequeue
  rw [reloadWriteShadow_eq]
  split <;> rfl

/-! ## With two clocks ENQ and DEQ commute -/

/-- When the consumer sees an item, there is one: DEQ and ENQ use different slots (R37, R39). -/
theorem next_read_ne_next_write {s : State} (hs : s.InstanceInv) (hitem : s.cEmpty = false) :
    s.next s.read ≠ s.next s.write := by
  obtain ⟨hc, ⟨hwrite, hread, _⟩, _, hv, _, _⟩ := hs
  have hpos := occupancy_pos_of_not_cEmpty hc hv hitem
  refine next_ne_next hc hread hwrite fun heq => ?_
  rw [State.occupancy, heq, positions_self hwrite] at hpos
  exact Nat.lt_irrefl 0 hpos

theorem reloads_commute (s : State) :
    producerLoaded (reloadWriteShadow s) = reloadWriteShadow (producerLoaded s) := by
  rw [producerLoaded_eq, producerLoaded_eq, reloadWriteShadow_eq, reloadWriteShadow_eq]
  rfl

section TwoClocks

variable {s : State} (hd : s.cfg.isDual = true)

include hd

/-- With two clocks an accepted ENQ counts NW alone (R36). -/
theorem enqueued_of_dual (item : Nat) :
    enqueued item s = { enqueued item s with ghost := { s.ghost with nw := s.ghost.nw + 1 } } := by
  have hghost : (enqueued item s).ghost = s.ghost.afterEnq true := congrArg s.ghost.afterEnq hd
  exact congrArg (fun g => { enqueued item s with ghost := g }) hghost

/-- With two clocks a successful DEQ counts NR alone (R36). -/
theorem dequeued_of_dual :
    dequeued s = { dequeued s with ghost := { s.ghost with nr := s.ghost.nr + 1 } } := by
  have hghost : (dequeued s).ghost = s.ghost.afterDeq true := congrArg s.ghost.afterDeq hd
  exact congrArg (fun g => { dequeued s with ghost := g }) hghost

/-- Neither port's reload is moved by the stores of the other port (R42). -/
theorem producerLoaded_dequeued : producerLoaded (dequeued s) = dequeued (producerLoaded s) := by
  have hd' : (producerLoaded s).cfg.isDual = true := by rwa [producerLoaded_eq]
  rw [dequeued_of_dual hd, dequeued_of_dual hd', producerLoaded_eq, producerLoaded_eq]
  rfl

theorem reloadWriteShadow_enqueued (item : Nat) :
    reloadWriteShadow (enqueued item s) = enqueued item (reloadWriteShadow s) := by
  have hd' : (reloadWriteShadow s).cfg.isDual = true := by rwa [reloadWriteShadow_eq]
  rw [enqueued_of_dual hd, enqueued_of_dual hd', reloadWriteShadow_eq, reloadWriteShadow_eq]
  rfl

/-- The accesses of an accepted ENQ and of a successful DEQ commute, reloads included (R72). -/
theorem enqueued_dequeued_loaded (item : Nat) (hslot : s.next s.read ≠ s.next s.write) :
    enqueued item (producerLoaded (dequeued (reloadWriteShadow s))) =
      dequeued (reloadWriteShadow (enqueued item (producerLoaded s))) := by
  have hdw : (reloadWriteShadow s).cfg.isDual = true := by rwa [reloadWriteShadow_eq]
  have hdr : (producerLoaded s).cfg.isDual = true := by rwa [producerLoaded_eq]
  have hslot' : (producerLoaded (reloadWriteShadow s)).next
        (producerLoaded (reloadWriteShadow s)).read ≠
      (producerLoaded (reloadWriteShadow s)).next
        (producerLoaded (reloadWriteShadow s)).write := by
    rwa [producerLoaded_eq, reloadWriteShadow_eq]
  calc enqueued item (producerLoaded (dequeued (reloadWriteShadow s)))
      = enqueued item (dequeued (producerLoaded (reloadWriteShadow s))) := by
        rw [producerLoaded_dequeued hdw]
    _ = dequeued (enqueued item (producerLoaded (reloadWriteShadow s))) :=
        enqueued_dequeued item hslot'
    _ = dequeued (enqueued item (reloadWriteShadow (producerLoaded s))) := by
        rw [reloads_commute]
    _ = dequeued (reloadWriteShadow (enqueued item (producerLoaded s))) := by
        rw [reloadWriteShadow_enqueued hdr]

/-- The producer decides on its own cursor and its own view, the consumer on its own (R42, R83). -/
theorem pFull_afterDequeue : (afterDequeue s).pFull = s.pFull := by
  unfold afterDequeue
  split
  · rfl
  · rw [reloadWriteShadow_eq]
    simp only [State.pFull, State.readView, dequeued, publishRead_cfg, hd, if_true]
    rfl

theorem cEmpty_afterEnqueue (item : Nat) : (afterEnqueue item s).cEmpty = s.cEmpty := by
  unfold afterEnqueue
  split
  · rfl
  · rw [producerLoaded_eq]
    simp only [State.cEmpty, State.writeView, enqueued, publishWrite_cfg, hd, if_true]
    rfl

variable (hs : s.InstanceInv) (item : Nat)

include hs

/-- The ENQ stores to another slot than the DEQ loads. -/
theorem dequeueOut_afterEnqueue : dequeueOut (afterEnqueue item s) = dequeueOut s := by
  unfold dequeueOut
  rw [cEmpty_afterEnqueue hd]
  cases hempty : s.cEmpty with
  | true => rfl
  | false =>
    have hslot := next_read_ne_next_write hs hempty
    have hkept : Memory.read (afterEnqueue item s).slots ((afterEnqueue item s).next
        (afterEnqueue item s).read) = Memory.read s.slots (s.next s.read) := by
      unfold afterEnqueue
      split
      · rfl
      · rw [producerLoaded_eq]
        exact memory_read_write_other _ _ _ _ hslot
    rw [hkept]

theorem afterEnqueue_afterDequeue :
    afterEnqueue item (afterDequeue s) = afterDequeue (afterEnqueue item s) := by
  have hfull := pFull_afterDequeue hd
  have hempty := cEmpty_afterEnqueue hd item
  cases hf : s.pFull with
  | true => rw [afterEnqueue_of_pFull (hfull.trans hf), afterEnqueue_of_pFull hf]
  | false =>
    cases he : s.cEmpty with
    | true => rw [afterDequeue_of_cEmpty (hempty.trans he), afterDequeue_of_cEmpty he]
    | false =>
      rw [afterEnqueue_of_not_pFull (hfull.trans hf), afterDequeue_of_not_cEmpty he,
        afterDequeue_of_not_cEmpty (hempty.trans he), afterEnqueue_of_not_pFull hf]
      exact enqueued_dequeued_loaded hd item (next_read_ne_next_write hs he)

end TwoClocks

/-! ## One instant, two steps -/

/-- The steps of an ENQ and a DEQ at one instant in both orders: `e` and `d` from `s`, then `ed` and
`de` after them, each command with the same results in either place. -/
structure BothOrders (item : Nat) (s e d ed de : State) : Prop where
  enq : exec (.enq item) s = .next e
  thenDeq : exec .deq e = .next ed
  deq : exec .deq s = .next d
  thenEnq : exec (.enq item) d = .next de
  deqOut : ed.out = d.out
  enqOut : de.out = e.out

/-- The event takes the steps in the order that it names (R207, log 16). -/
theorem BothOrders.sameEdge_eq {item : Nat} {s e d ed de : State} (h : BothOrders item s e d ed de)
    (hb : s.built = true) (hcase : s.cfg.isDual = true ∨ s.flushing = true) (p : Bool) :
    sameEdge p item s = .next (showing (bothPorts e.out d.out) (if p then ed else de)) := by
  obtain ⟨henq, hthenDeq, hdeq, hthenEnq, hdeqOut, henqOut⟩ := h
  refine (onInstance_built _ hb).trans ((if_pos (by simpa using hcase)).trans ?_)
  cases p with
  | true =>
    refine thenStep_eq_next.2 ⟨e, henq, thenStep_eq_next.2 ⟨ed, hthenDeq, ?_⟩⟩
    rw [hdeqOut]
    rfl
  | false =>
    refine thenStep_eq_next.2 ⟨d, hdeq, thenStep_eq_next.2 ⟨de, hthenEnq, ?_⟩⟩
    rw [henqOut]
    rfl

/-- In a window each of the two steps raises FlushRace (R209). -/
theorem bothOrders_of_flushing {s : State} (hb : s.built = true) (hf : s.flushing = true)
    (item : Nat) :
    BothOrders item s (raise .flushRace .producer 0x1 s) (raise .flushRace .consumer 0x2 s)
      (raise .flushRace .consumer 0x2 (raise .flushRace .producer 0x1 s))
      (raise .flushRace .producer 0x1 (raise .flushRace .consumer 0x2 s)) where
  enq := portCommand_flushing .producer 0x1 _ hb hf
  thenDeq := portCommand_flushing (s := raise .flushRace .producer 0x1 s) .consumer 0x2 _ hb hf
  deq := portCommand_flushing .consumer 0x2 _ hb hf
  thenEnq := portCommand_flushing (s := raise .flushRace .consumer 0x2 s) .producer 0x1 _ hb hf
  deqOut := rfl
  enqOut := rfl

/-- With two clocks and no window each step decides alike after the other; they commute (R72). -/
theorem bothOrders_of_dual {s : State} (hinv : s.Inv) (hready : s.Ready)
    (hd : s.cfg.isDual = true) (item : Nat) :
    BothOrders item s (showing (okOn .producer !s.pFull) (afterEnqueue item s))
      (showing (dequeueOut s) (afterDequeue s))
      (showing (dequeueOut s) (afterDequeue (afterEnqueue item s)))
      (showing (okOn .producer !s.pFull) (afterDequeue (afterEnqueue item s))) := by
  have ⟨hb, hf⟩ := hready
  have hs := hinv.2 hb
  have henq := exec_enq_eq_afterEnqueue hinv hready item
  have hdeq := exec_deq_eq_afterDequeue hinv hready
  obtain ⟨heinv, heb⟩ := exec_keeps_inv hinv hb henq
  obtain ⟨hdinv, hdb⟩ := exec_keeps_inv hinv hb hdeq
  refine ⟨henq, ?_, hdeq, ?_, rfl, rfl⟩
  · rw [exec_deq_eq_afterDequeue heinv ⟨heb, (afterEnqueue_flushing item s).trans hf⟩,
      afterDequeue_showing, dequeueOut_showing, dequeueOut_afterEnqueue hd hs]
    rfl
  · rw [exec_enq_eq_afterEnqueue hdinv ⟨hdb, (afterDequeue_flushing s).trans hf⟩,
      afterEnqueue_showing, afterEnqueue_afterDequeue hd hs, pFull_showing, pFull_afterDequeue hd]
    rfl

theorem showing_raise_raise (o : Outputs) (k k' : ErrorKind) (a a' : Agent) (op op' : Nat)
    (s : State) : showing o (raise k' a' op' (raise k a op s)) = { s with
      fault := s.fault ++ [{ kind := k, agent := a, opcode := op },
        { kind := k', agent := a', opcode := op' }]
      out := o } := by
  simp only [showing, raise, List.append_assoc, List.singleton_append]

/-- Settles O60: in a window both orders raise twice; outside it the two steps commute. -/
theorem sameInstantIsTwoStepsInEitherOrder : Obligations.SameInstantIsTwoStepsInEitherOrder := by
  intro s item p hinv hb hcase
  obtain hf | hf := Bool.eq_false_or_eq_true s.flushing
  · have horders := bothOrders_of_flushing hb hf item
    have hedge := horders.sameEdge_eq hb hcase p
    obtain ⟨henq, hthenDeq, hdeq, hthenEnq, hdeqOut, henqOut⟩ := horders
    refine ⟨_, _, _, _, _, hedge, henq, hthenDeq, hdeq, hthenEnq, rfl, hdeqOut, henqOut, ?_,
      fun hf' => absurd hf (Bool.eq_false_iff.1 hf'), fun _ => ?_⟩
    · cases p <;> rfl
    · cases p <;> exact showing_raise_raise ..
  · have hd := hcase.resolve_right (Bool.eq_false_iff.1 hf)
    have horders := bothOrders_of_dual hinv ⟨hb, hf⟩ hd item
    have hedge := horders.sameEdge_eq hb hcase p
    obtain ⟨henq, hthenDeq, hdeq, hthenEnq, hdeqOut, henqOut⟩ := horders
    refine ⟨_, _, _, _, _, hedge, henq, hthenDeq, hdeq, hthenEnq, rfl, hdeqOut, henqOut, ?_,
      fun _ => rfl, fun hf' => absurd hf' (Bool.eq_false_iff.1 hf)⟩
    cases p <;> rfl

end Sys2Proof.Proofs
end

section
/-!
PROOFS. The cursors (10_state R22, R23): a command that does not set them moves `write` only as an
ENQ and `read` only as a DEQ, by one position each (R238).
-/

namespace Sys2Proof.Proofs

open Sys2Proof Sys2Proof.Machine

/-- The cursor store of ENQ is the only one to `write`, and it stores `inc(write)` (R141). -/
theorem execEnq_write {s t : State} {item : Nat} (h : execEnq item s = .next t) :
    t.write = s.write ∨ t.write = s.next s.write := by
  obtain ⟨_, ⟨_, rfl⟩ | ⟨_, h⟩⟩ := portCommand_next h
  · exact .inl rfl
  have hload : (producerLoaded s).write = s.write := by rw [producerLoaded_eq]
  obtain ⟨_, hbody⟩ | ⟨_, _, hbody⟩ | ⟨_, u, hu, hbody⟩ := enqBody_cases item s
  · cases hbody.symm.trans h
    exact .inl hload
  · cases hbody.symm.trans h
    exact .inl rfl
  · cases hbody.symm.trans h
    obtain ⟨_, rfl⟩ := enqCommit_eq_ok.1 hu
    exact .inr rfl

/-- The cursor store of DEQ is the only one to `read`, and it stores `inc(read)` (R151). -/
theorem execDeq_read {s t : State} (h : execDeq s = .next t) :
    t.read = s.read ∨ t.read = s.next s.read := by
  obtain ⟨_, ⟨_, rfl⟩ | ⟨_, h⟩⟩ := portCommand_next h
  · exact .inl rfl
  obtain ⟨_, hbody⟩ | ⟨_, _, hbody⟩ | ⟨_, u, _, hu, hbody⟩ := deqBody_cases s
  · cases hbody.symm.trans h
    exact .inl (reloadWriteShadow_read s)
  · cases hbody.symm.trans h
    exact .inl rfl
  · cases hbody.symm.trans h
    obtain ⟨_, _, rfl⟩ := deqCommit_state hu
    rw [reloadWriteShadow_eq]
    exact .inr rfl

/-- A crossing agent moves a view, and a view is no cursor (R180, R181). -/
theorem execSync_cursors {s t : State} {i : Instr} (hi : i = .syncW2r ∨ i = .syncR2w)
    (h : exec i s = .next t) : t.write = s.write ∧ t.read = s.read := by
  obtain rfl | rfl := hi
  all_goals
    obtain ⟨_, h⟩ := onInstance_next h
    split at h <;> cases h
    exact ⟨rfl, rfl⟩

/-- Only construction, RESET, FLUSH_END, ENQ and DEQ store to a cursor. -/
theorem exec_cursors_of_no_store {s t : State} {i : Instr} (hset : setsCursors i = false)
    (henq : ∀ x, i ≠ .enq x) (hdeq : i ≠ .deq) (h : exec i s = .next t) :
    t.write = s.write ∧ t.read = s.read := by
  by_cases hp : portOf i = some .producer ∨ portOf i = some .consumer
  · rw [exec_port_frame hp henq hdeq h]
    exact ⟨rfl, rfl⟩
  cases i with
  | hnop | flushBegin =>
    obtain ⟨_, h⟩ := onInstance_next h
    cases h
    exact ⟨rfl, rfl⟩
  | syncW2r => exact execSync_cursors (.inl rfl) h
  | syncR2w => exact execSync_cursors (.inr rfl) h
  | flushEnd | reset | construct | constructFrom => cases hset
  | _ => simp [portOf] at hp

/-- Settles O54: ENQ and DEQ each move their own port's cursor at most and leave the other alone;
every other command leaves both. -/
theorem cursorsMoveOnePosition : Obligations.CursorsMoveOnePosition := by
  intro s t i hset h
  by_cases henq : ∃ x, i = .enq x
  · obtain ⟨x, rfl⟩ := henq
    have hread : t.read = s.read := by rw [execEnq_frame h]
    exact ⟨(execEnq_write h).imp_right fun hwrite => ⟨⟨x, rfl⟩, hwrite⟩, .inl hread⟩
  by_cases hdeq : i = .deq
  · subst hdeq
    have hwrite : t.write = s.write := by rw [execDeq_frame h]
    exact ⟨.inl hwrite, (execDeq_read h).imp_right fun hread => ⟨rfl, hread⟩⟩
  · obtain ⟨hwrite, hread⟩ := exec_cursors_of_no_store hset (not_exists.1 henq) hdeq h
    exact ⟨.inl hwrite, .inl hread⟩

end Sys2Proof.Proofs
end
